-- ==== Sys2Proof/Word.lean ====
section
/-! DEFINITION. The words of the CW410's layouts: bytes, 16-bit data words and 128-bit keys (0.6, 12.1, 3.7). -/

namespace Sys2Proof

/-- One byte of a layout (0.6). -/
abbrev Byte := BitVec 8

/-- One frame port data word: 16 bits, sent high byte first (0.6, 11.1). -/
abbrev Word := BitVec 16

/-- A key of any kind: 128 bits (3.7). -/
abbrev Key := BitVec 128

/-- A key's check value: 3 bytes (R58). -/
abbrev CheckValue := BitVec 24

end Sys2Proof
end

