-- ==== Sys2Proof/Config.lean ====
section
/-! DEFINITION. What is fixed for the part: the geometry and bounds that the manual states, the cipher (known to the
manual by its inputs and outcomes only) and the orders that the manual leaves open. Every `opaque` constant here is
free: nothing can be proved of it but the laws that its type states. -/

namespace Sys2Proof.Config

/-! ### Geometry and bounds -/

/-- The ring has 4,096 slots (R81). -/
def ringSlots : Nat := 4096
/-- A slot is 32 bytes (R81). -/
def slotBytes : Nat := 32
/-- The ring as bytes: 4,096 × 32 (R81). -/
def ringBytes : Nat := 131072
/-- The directory holds at most 512 entries (R83). -/
def directoryMax : Nat := 512
/-- The spill list holds at most 256 entries (R116). -/
def spillListMax : Nat := 256
/-- At most 8 records are OFFERED at once (R90). -/
def offerWindow : Nat := 8
/-- The slots that lane wraps may not use (R66). -/
def reserveSlots : Nat := 16
/-- The free entries a lane wrap needs: its own and the reserve of 5 (R66). -/
def wrapEntries : Nat := 6
/-- Places of a port's posted-write queue (R181). -/
def postedPlaces : Nat := 4
/-- Places of the response intake (8.1). -/
def intakePlaces : Nat := 4
/-- Data words of one transaction (R183). -/
def burstLimit : Nat := 64
/-- Largest record number (R83). -/
def maxRecord : Nat := 4294967295
/-- Largest lane sequence, and the bound of a settlement count (R14, R52). -/
def maxCount : Nat := 16777215
/-- The bound of a settlement total, 2⁴⁰ − 1 (R52). -/
def maxTotal : Nat := 1099511627775
/-- The most uses that a use limit allows (R162). -/
def maxUses : Nat := 1048576
/-- The part code of the CW410 in the identity item (R191). -/
def partCode : Nat := 0x0410

/-! ### The cipher (3.7): inputs and outcomes only -/

/-- What a derived key is for (R54, R57). -/
inductive Purpose where
  | record
  | response
deriving DecidableEq, Repr

/-- A key derivation (R54, R57): the derived key from a key, a purpose, a record number, a lane and a lane sequence. The
same three values never derive one key for a record and for a response (R57). The default of a field only shows that
some derivation meets the law. -/
structure KeyDerivation where
  derive : Key → Purpose → Nat → Nat → Nat → Key := fun _ p _ _ _ => if p = .record then 0 else 1
  record_ne_response : ∀ (k k' : Key) (number lane seq : Nat),
    derive k .record number lane seq ≠ derive k' .response number lane seq := by intros; simp
deriving Inhabited

/-- The part's key derivation. Free value. DESIGN CHOICE: log entry 7. -/
opaque derivation : KeyDerivation

/-- A key derived from a key, a purpose, a record number, a lane and a lane sequence (R54, R57). -/
def deriveKey : Key → Purpose → Nat → Nat → Nat → Key := derivation.derive

/-- A cipher for bodies (3.7): an enciphered body has the length of the plain body, and the same key deciphers it back
(R56). The default of a field only shows that some cipher meets the laws. DEDUCED: log entry 36. -/
structure BodyCipher where
  encipher : Key → List Byte → List Byte := fun _ body => body
  decipher : Key → List Byte → List Byte := fun _ body => body
  length_encipher : ∀ k plain, (encipher k plain).length = plain.length := by intros; rfl
  decipher_encipher : ∀ k plain, decipher k (encipher k plain) = plain := by intros; rfl
  encipher_decipher : ∀ k body, encipher k (decipher k body) = body := by intros; rfl
deriving Inhabited

/-- The part's cipher for bodies (R55 to R57). Free value. DESIGN CHOICE: log entry 7. -/
opaque bodyCipher : BodyCipher

/-- The sum of bytes, modulo 256: the one value that shows that some tag meets `Tagging`'s laws. -/
def byteSum (data : List Byte) : Byte := data.foldr (· + ·) 0

/-- A sum changes with any one of its bytes. -/
theorem byteSum_set_ne : ∀ (data : List Byte) (i : Nat) (b : Byte), i < data.length → data[i]? ≠ some b →
    byteSum (data.set i b) ≠ byteSum data
  | [], _, _, h, _ => absurd h (by simp)
  | a :: data, 0, b, _, h => fun h' => h (by simpa [byteSum, BitVec.add_left_inj] using h'.symm)
  | a :: data, i + 1, b, h, h2 => fun h' =>
    byteSum_set_ne data i b (by simpa using h) (by simpa using h2)
      (by simpa [byteSum, BitVec.add_right_inj] using h')

/-- A tag (3.7, R55): 16 bytes over the given bytes under a key, which a change to one covered byte makes fail. The default
of a field only shows that some tag meets the laws. -/
structure Tagging where
  tag : Key → List Byte → List Byte := fun _ data => byteSum data :: List.replicate 15 0
  length_tag : ∀ k data, (tag k data).length = 16 := by intros; rfl
  tag_set_ne : ∀ k (data : List Byte) (i : Nat) (b : Byte), i < data.length → data[i]? ≠ some b →
    tag k (data.set i b) ≠ tag k data := by
      intro _ data i b h h2 h3
      exact Sys2Proof.Config.byteSum_set_ne data i b h h2 (List.cons.inj h3).1
deriving Inhabited

/-- The part's tag (R55). Free value. DESIGN CHOICE: log entry 7. -/
opaque tagging : Tagging

/-- A test of response tags (R57, R138): whether a tag passes under a per-response key, for the 16-byte clear header and the
16-byte enciphered part that it covers. Under one response key a change to the header makes the tag fail (R138), also where
it changes the derived key; so does a change to the enciphered part. DEDUCED: log entry 38. The default of a field only
shows that some test meets the laws. -/
structure TagTest where
  passes : Key → List Byte → List Byte → Bool := fun _ _ _ => false
  header_changed : ∀ (k : Key) (n l q n' l' q' : Nat) (header header' sealed tag : List Byte),
    header.length = 16 → header'.length = 16 → sealed.length = 16 → header ≠ header' →
    passes (deriveKey k .response n l q) (header ++ sealed) tag = true →
    passes (deriveKey k .response n' l' q') (header' ++ sealed) tag = false := by intros; rfl
  sealed_changed : ∀ (k : Key) (header sealed sealed' tag : List Byte),
    header.length = 16 → sealed.length = 16 → sealed'.length = 16 → sealed ≠ sealed' →
    passes k (header ++ sealed) tag = true → passes k (header ++ sealed') tag = false := by intros; rfl
deriving Inhabited

/-- The part's test of response tags (R57). Free value. DESIGN CHOICE: log entry 7. -/
opaque tagTest : TagTest

/-- Whether a response's tag passes under a per-response key: key, covered bytes, tag bytes (R57). -/
def tagPasses : Key → List Byte → List Byte → Bool := tagTest.passes

/-- A cipher for single 16-byte blocks (3.7, R58): the same key deciphers an enciphered block back. The default of a
field only shows that some cipher meets the laws. DEDUCED: log entry 36. -/
structure BlockCipher where
  encipher : Key → BitVec 128 → BitVec 128 := fun _ block => block
  decipher : Key → BitVec 128 → BitVec 128 := fun _ block => block
  decipher_encipher : ∀ k block, decipher k (encipher k block) = block := by intros; rfl
  encipher_decipher : ∀ k block, encipher k (decipher k block) = block := by intros; rfl
deriving Inhabited

/-- The part's cipher for single blocks (R58, R172). Free value. DESIGN CHOICE: log entry 7. -/
opaque blockCipher : BlockCipher

/-! ### Orders that the manual leaves open -/

/-- The order in which a REWRAP completion makes its three following actions (the key table's re-evaluation, the
answer of a held offer read, the answer of a held spill read): R92 says that either read may be answered first and
10.10 that the campaign may look before or after. One of the six orders, for the free choice of the given number.
Free value. DESIGN CHOICE: log entry 8. -/
opaque rewrapOrder : Nat → Fin 6

/-- How many data words of the answer that a port is sending have crossed when a reset or a tamper ends it (R188): no
command stands for the crossing of a word. One number for each such end of a transaction. Free value.
DESIGN CHOICE: log entry 4. -/
opaque wordsSent : Nat → Nat

/-- Whether a header that meets both a DENIED and a BAD_WINDOW case of R179 and R180 is refused DENIED: the manual
does not say which reason stands. Free value. DESIGN CHOICE: log entry 9. -/
opaque deniedFirst : Bool

end Sys2Proof.Config
end

