-- ==== Sys2Proof/Syntax.lean ====
section
/-! DEFINITION. The commands of the CW410: one constructor of `Instr` for each row of spec/opcode_table.json, with the
operands that the row's rules read. -/

namespace Sys2Proof

/-- The two frame ports: the lane port and the uplink port (0.2). -/
inductive PortId where
  | lp
  | up
deriving DecidableEq, Repr

/-- The burst form of a transaction (R178). -/
inductive BurstForm where
  | linear
  | circular
deriving DecidableEq, Repr

/-- The direction of a transaction (R178). -/
inductive Direction where
  | read
  | write
deriving DecidableEq, Repr

/-- The header items that most blocks only pass on: burst form, word offset and tag (R178). -/
structure Header where
  form   : BurstForm
  offset : Word
  tag    : Byte
deriving DecidableEq, Repr

/-- A data word of a write with its two byte enables (R190). -/
structure DataWord where
  value : Word
  high  : Bool
  low   : Bool
deriving DecidableEq, Repr

/-- What an INTAKE write sends: the header items that are passed on, and the data words that follow (R178, R181). -/
structure Burst where
  hdr   : Header
  words : List DataWord
deriving DecidableEq, Repr

/-- The two moments of a posted write (R181): `post`, its header arrives and it takes (or waits for) a place of the
posted-write queue; `apply`, it is applied at its block, from the front of the queue or, with nothing ahead of it,
straight on arrival. DESIGN CHOICE: log entry 3. -/
inductive Stage where
  | post
  | apply
deriving DecidableEq, Repr

/-- The configuration items that CONFIG_WRITE covers (12.4): those without a row of their own. -/
inductive ConfigItem where
  | onlineTimeout
  | offerTimeout
  | attemptLimit
  | ceiling
  | riskEntry (cardClass : Fin 8)
  | missThreshold
  | recoverThreshold
  | forgedLimit
  | rewrapShare
  | holdLimit
deriving DecidableEq, Repr

/-- The commands. A write's `words` are its data words in order; an `extra` is the data words that follow a command
word (or a command word and record number) and are ignored but for the burst limit. `index` is the header's index.
DESIGN CHOICE: log entry 31. -/
inductive Instr where
  /-- LANE_BUF_WRITE (R1 to R4). -/
  | laneBufWrite (stage : Stage) (lane : Fin 16) (hdr : Header) (words : List DataWord)
  /-- WRAP (R5, R6). -/
  | wrap (stage : Stage) (lane : Fin 16) (hdr : Header) (extra : List DataWord)
  /-- ABANDON (R8). -/
  | abandon (stage : Stage) (lane : Fin 16) (hdr : Header) (extra : List DataWord)
  /-- RESET_LANE (R9, R10). -/
  | resetLane (stage : Stage) (lane : Fin 16) (hdr : Header) (extra : List DataWord)
  /-- LANE_CMD_BAD_COMMAND (R10). -/
  | laneCmdBadCommand (stage : Stage) (lane : Fin 16) (hdr : Header) (words : List DataWord)
  /-- LANE_CMD_READ (R20). -/
  | laneCmdRead (lane : Fin 16) (hdr : Header)
  /-- LANE_RSP_READ (R21). -/
  | laneRspRead (lane : Fin 16) (hdr : Header)
  /-- ONLINE_TIMER_EXPIRY (R17). -/
  | onlineTimerExpiry (lane : Fin 16)
  /-- TAKE_WRAP (R67, R68). -/
  | takeWrap
  /-- TAKE_ADVISE (R69). -/
  | takeAdvise
  /-- TAKE_REWRAP (R70). -/
  | takeRewrap
  /-- TAKE_CLOSE (R71). -/
  | takeClose
  /-- TAKE_OPEN (R72). -/
  | takeOpen
  /-- WRAP_COMPLETION (R73). -/
  | wrapCompletion
  /-- ADVISE_COMPLETION (R73, R18). -/
  | adviseCompletion
  /-- CLOSE_COMPLETION (R74). -/
  | closeCompletion
  /-- REWRAP_COMPLETION (R75). -/
  | rewrapCompletion
  /-- OPEN_COMPLETION (R76). -/
  | openCompletion
  /-- OFFER (R90 to R93): an OFFER read on the uplink port. -/
  | offer (index : Word) (hdr : Header)
  /-- RING_READ (R94): a RING read of `count` data words. -/
  | ringRead (port : PortId) (index : Word) (hdr : Header) (count : Nat)
  /-- ACK (R96, R97). -/
  | ack (stage : Stage) (index : Word) (hdr : Header) (number : BitVec 32) (extra : List DataWord)
  /-- NAK (R98). -/
  | nak (stage : Stage) (index : Word) (hdr : Header) (number : BitVec 32) (extra : List DataWord)
  /-- UNPARK (R99). -/
  | unpark (stage : Stage) (index : Word) (hdr : Header) (number : BitVec 32) (extra : List DataWord)
  /-- CONFIRM_MALFORMED (R95). -/
  | confirmMalformed (stage : Stage) (index : Word) (hdr : Header) (words : List DataWord)
  /-- OFFER_TIMER_EXPIRY (R100). -/
  | offerTimerExpiry (number : BitVec 32)
  /-- SPILL (R108 to R111): a SPILL read on the lane port. -/
  | spill (index : Word) (hdr : Header)
  /-- SPILL_DONE (R112, R113). -/
  | spillDone (stage : Stage) (index : Word) (hdr : Header) (number : BitVec 32) (extra : List DataWord)
  /-- SPILL_CANCEL (R112, R114). -/
  | spillCancel (stage : Stage) (index : Word) (hdr : Header) (number : BitVec 32) (extra : List DataWord)
  /-- SPILL_COMMAND_REFUSED (R112). -/
  | spillCommandRefused (stage : Stage) (index : Word) (hdr : Header) (words : List DataWord)
  /-- INTAKE_CLAIM (R139): the header of an INTAKE write arrives, with the data words that fill its queue place. -/
  | intakeClaim (index : Word) (burst : Burst)
  /-- INTAKE_WRITE (R141): the INTAKE write of these data words is applied from the front of the uplink queue. -/
  | intakeWrite (words : List DataWord)
  /-- CLOSE (R152). -/
  | close (stage : Stage) (index : Word) (hdr : Header) (extra : List DataWord)
  /-- LINK_DOWN (R134). -/
  | linkDown (stage : Stage) (index : Word) (hdr : Header) (extra : List DataWord)
  /-- LINK_UP (R134). -/
  | linkUp (stage : Stage) (index : Word) (hdr : Header) (extra : List DataWord)
  /-- ROLL (R165). -/
  | roll (stage : Stage) (index : Word) (hdr : Header) (extra : List DataWord)
  /-- RESUME (R146). -/
  | resume (stage : Stage) (index : Word) (hdr : Header) (extra : List DataWord)
  /-- SHOP_CMD_MALFORMED (R185). -/
  | shopCmdMalformed (stage : Stage) (index : Word) (hdr : Header) (words : List DataWord)
  /-- WATERMARKS_WRITE (R88). -/
  | watermarksWrite (stage : Stage) (index : Word) (hdr : Header) (words : List DataWord)
  /-- USE_LIMIT_WRITE (R162). -/
  | useLimitWrite (stage : Stage) (index : Word) (hdr : Header) (words : List DataWord)
  /-- EVENT_STATUS_CLEAR (R186). -/
  | eventStatusClear (stage : Stage) (port : PortId) (hdr : Header) (words : List DataWord)
  /-- EVENT_MASK_WRITE (R186). -/
  | eventMaskWrite (stage : Stage) (port : PortId) (hdr : Header) (words : List DataWord)
  /-- WRITE_STATUS_CLEAR (R184). -/
  | writeStatusClear (stage : Stage) (port : PortId) (hdr : Header) (words : List DataWord)
  /-- CONFIG_WRITE (R180). -/
  | configWrite (stage : Stage) (item : ConfigItem) (index : Word) (hdr : Header) (words : List DataWord)
  /-- HEADER_REFUSAL (R179, R180): direction, space, code and index decide; `count` data words cross after it. The header
  of a read of a control item, which has no row of its own and is refused by its index only, is taken here too.
  DESIGN CHOICE: log entry 10. -/
  | headerRefusal (port : PortId) (dir : Direction) (control : Bool) (code : BitVec 5) (index : Word) (hdr : Header) (count : Nat)
  /-- HOLD_LIMIT_EXPIRY (R182): `count` is the number of data words that the master goes on to read from a read answered
  HELD_OUT. -/
  | holdLimitExpiry (port : PortId) (count : Nat)
  /-- LOAD_TRANSPORT (R171). -/
  | loadTransport (key : Key) (check : CheckValue)
  /-- LOAD_KEY (R172): the role byte, the epoch, the key enciphered under the transport key, the check value. -/
  | loadKey (role : Byte) (epoch : BitVec 16) (enciphered : BitVec 128) (check : CheckValue)
  /-- DISCARD_NEXT (R173). -/
  | discardNext
  /-- SET_POLICY (R35, R174): one byte for each field code 1 to 15. -/
  | setPolicy (entries : Vector Byte 15)
  /-- SET_SHOP (R174). -/
  | setShop (identity : BitVec 32)
  /-- QUERY (R175). -/
  | query (selector : Byte) (index : Byte)
  /-- BAD_FRAME (R170): the bytes that follow the sync byte of a frame that is not executed. -/
  | badFrame (bytes : List Byte)
  /-- KEY_LINE_GAP (R170). -/
  | keyLineGap
  /-- KEY_LINE_BYTE_FAULT (R170). -/
  | keyLineByteFault
  /-- KEY_LINE_REPLY_END (R170). -/
  | keyLineReplyEnd
  /-- TAMPER (R176): the tamper input is asserted. -/
  | tamper
  /-- RESET_ASSERTION (R104): the RESET input is asserted. -/
  | resetAssertion
  /-- RESET_RELEASE (R104): the RESET input is released. -/
  | resetRelease
  /-- POWER_LOSS (R188): main power is lost; `backupHeld` says whether the backup supply holds retention memory. -/
  | powerLoss (backupHeld : Bool)
  /-- POWER_UP (R104). -/
  | powerUp
  /-- SYNC_BYTE (R170): a byte of the sync value arrives on the key line. -/
  | syncByte
  /-- READ_BURST_TRUNCATION (R183): the 65th data word of a read crosses the port. -/
  | readBurstTruncation (port : PortId)
deriving DecidableEq, Repr

end Sys2Proof
end

