-- ==== Sys2Proof/Machine/State.lean ====
section
/-! DEFINITION. The state of the CW410 as plain data: every item of the blocks of 0.3, and the queue of waiting commands. -/

namespace Sys2Proof.Machine

/-! ### Record vocabulary (chapter 2) -/

/-- The kind of a clear record (Table 2-1). -/
inductive TxKind where
  | sale
  | refund
  | reversal
deriving DecidableEq, Repr

/-- The kind of a stored record (R82). -/
inductive RecordKind where
  | sale
  | refund
  | reversal
  | advice
  | summary
deriving DecidableEq, Repr

/-- The mode of a record (Table 2-1). -/
inductive Mode where
  | online
  | offline
deriving DecidableEq, Repr

/-- The handling of a field (2.4). -/
inductive FieldClass where
  | clear
  | truncate
  | wrap
  | drop
deriving DecidableEq, Repr

/-- The shop class of a policy entry (Table 2-3). -/
inductive ShopClass where
  | unset
  | clear
  | truncate
  | wrap
  | drop
deriving DecidableEq, Repr

/-- One entry of the field policy table (R34). -/
structure PolicyEntry where
  shopClass : ShopClass
  required  : Bool
deriving DecidableEq, Repr

/-! ### Lanes (chapter 1) -/

/-- The reason carried by OFFLINE_REFUSED (Table 1-3, 12.2). -/
inductive RefuseReason where
  | floor
  | ceiling
  | storeFull
  | keySpent
  | noKey
deriving DecidableEq, Repr

/-- The last result of a lane (Table 1-3), in the table's order. -/
inductive LaneResult where
  | none
  | lost
  | reset
  | abandoned
  | busy
  | empty
  | incomplete
  | badFormat
  | badAmount
  | badField
  | missingField
  | noContact
  | storeFull
  | keySpent
  | noKey
  | offlineRefused (reason : RefuseReason)
  | wrapped (number : Nat)
  | offlineAccepted (number : Nat)
  | noAnswer (number : Nat)
deriving DecidableEq, Repr

/-- The frozen wrap request (R7). -/
structure WrapRequest where
  kind       : TxKind
  mode       : Mode
  fallback   : Bool
  cardClass  : Fin 8
  amount     : Nat
  classes    : List FieldClass
  slots      : Nat
  generation : Nat
deriving DecidableEq, Repr

/-- The advice request (R17). `taken` is set once the engine has taken it: until then it is in the pending set (R60).
DESIGN CHOICE: log entry 24. -/
structure AdviceRequest where
  origin     : Nat
  amount     : Nat
  cardClass  : Fin 8
  generation : Nat
  taken      : Bool
deriving DecidableEq, Repr

/-- The awaited record of a lane (R13). -/
structure Awaited where
  number    : Nat
  laneSeq   : Nat
  fallback  : Bool
  amount    : Nat
  cardClass : Fin 8
deriving DecidableEq, Repr

/-- The result of an acquirer response (12.3). -/
inductive AcquirerResult where
  | approved
  | declined
  | refer
deriving DecidableEq, Repr

/-- The contents of a FULL response slot (R19): approval code (6 bytes) and acquirer reference (6 bytes) as deciphered. -/
structure Response where
  number    : Nat
  result    : AcquirerResult
  approval  : List Byte
  reference : List Byte
deriving DecidableEq, Repr

/-- The lane state (Table 1-2) with what each state alone holds (Table 1-1): the wrap request in QUEUED, the awaited
record and the running online timer's duration in WAIT_RESPONSE, the response slot in ANSWERED, the advice request in
FALLBACK. In every other state those items are absent, stopped or EMPTY. -/
inductive LaneMode where
  | idle
  | assembling
  | queued (request : WrapRequest)
  | wrapping
  | waitResponse (awaited : Awaited) (timer : Nat)
  | answered (response : Response)
  | fallback (advice : AdviceRequest)
deriving DecidableEq, Repr

/-- A lane context (Table 1-1). -/
structure Lane where
  mode       : LaneMode
  buffer     : Vector Byte 128
  written    : Vector Bool 128
  seq        : Nat
  generation : Nat
  orphan     : Bool
  result     : LaneResult
  attention  : Bool
deriving DecidableEq, Repr

/-! ### Record store and spill unit (chapters 5 and 6) -/

/-- The prior state noted on a REWRAPPING entry (R70). -/
inductive Prior where
  | held
  | parked
deriving DecidableEq, Repr

/-- The state of a directory entry (Table 5-2), with the offer timer's duration in OFFERED and the prior state in
REWRAPPING, which are present there only (R82). -/
inductive EntryState where
  | writing
  | held
  | offered (timer : Nat)
  | parked
  | rewrapping (prior : Prior)
  | spilling
  | spilled
  | confirmed
deriving DecidableEq, Repr

/-- A directory entry (R82). `length` is W, and 0 until the completion sets it. DESIGN CHOICE: log entry 17. -/
structure Entry where
  number    : Nat
  lane      : Nat
  laneSeq   : Nat
  kind      : RecordKind
  offline   : Bool
  fallback  : Bool
  batch     : Nat
  epoch     : Nat
  firstSlot : Nat
  slots     : Nat
  length    : Nat
  state     : EntryState
  charge    : Nat
  awaiting  : Bool
  attempts  : Nat
deriving DecidableEq, Repr

/-- The record store: directory from head to tail, head and tail slot, record-number counter, high-mark flag (`armed`)
and the ring's bytes (R81 to R83, R89). -/
structure Store where
  directory : List Entry
  headSlot  : Nat
  tailSlot  : Nat
  counter   : Nat
  armed     : Bool
  ring      : List Host.Cell
deriving DecidableEq, Repr

/-- The spill reservation: LIVE, or GONE (6.1). -/
structure Reservation where
  number : Nat
  live   : Bool
deriving DecidableEq, Repr

/-- A spill list entry (R116). -/
structure SpillItem where
  number : Nat
  charge : Nat
  batch  : Nat
deriving DecidableEq, Repr

/-- The spill unit (6.1). -/
structure Spill where
  reservation : Option Reservation
  list        : List SpillItem
deriving DecidableEq, Repr

/-! ### Exposure unit (chapter 7) -/

/-- The link state (7.8). -/
inductive LinkState where
  | contact
  | doubt
  | outage
deriving DecidableEq, Repr

/-- The link monitor (R130). -/
structure Link where
  state  : LinkState
  misses : Nat
  signs  : Nat
deriving DecidableEq, Repr

/-- A row of the risk table (R124). -/
structure RiskEntry where
  floor  : Nat
  weight : Nat
deriving DecidableEq, Repr

/-! ### Response intake (chapter 8) -/

/-- The outcome of an opening (8.1). -/
inductive OpenOutcome where
  | noKey
  | staleKey
  | forged
  | valid
  | late
deriving DecidableEq, Repr

/-- The response intake (Table 8-1): the records of the FULL places, oldest first, the number of CLAIMED places (the
rest of the four are FREE), the suspension flag, the counts and the last outcome with its record number.
DESIGN CHOICE: log entry 18. -/
structure Intake where
  queue     : List (List Byte)
  claimed   : Nat
  suspended : Bool
  forged    : Nat
  late      : Nat
  last      : Option (OpenOutcome × Nat)
deriving DecidableEq, Repr

/-! ### Batch accumulator (chapter 9) -/

/-- The four values and the saturation flag of a card class (Table 9-1). -/
structure ClassTotals where
  debitCount  : Nat
  debitTotal  : Nat
  creditCount : Nat
  creditTotal : Nat
  saturated   : Bool
deriving DecidableEq, Repr

/-- The batch accumulator (Table 9-1). -/
structure Batch where
  number       : Nat
  classes      : Vector ClassTotals 8
  recordCount  : Nat
  first        : Nat
  summaryLost  : Bool
  closePending : Bool
  shopSeq      : Nat
deriving DecidableEq, Repr

/-- The snapshot that a CLOSE take hands to the working copy (R153). -/
structure Snapshot where
  classes     : Vector ClassTotals 8
  recordCount : Nat
  number      : Nat
  first       : Nat
  last        : Nat
  summaryLost : Bool
deriving DecidableEq, Repr

/-! ### Key table (chapter 10) -/

/-- The role of a wrapping key slot that is not EMPTY (R159). -/
inductive Role where
  | next
  | active
  | retiring
deriving DecidableEq, Repr

/-- A wrapping key in its slot (Table 10-1). -/
structure WrapKey where
  role  : Role
  key   : Key
  epoch : Nat
  uses  : Nat
  check : CheckValue
  wear  : Bool
deriving DecidableEq, Repr

/-- The loaded response key (R161). -/
structure ResponseKey where
  key   : Key
  epoch : Nat
  check : CheckValue
deriving DecidableEq, Repr

/-- The loaded transport key (R161). -/
structure TransportKey where
  key   : Key
  check : CheckValue
deriving DecidableEq, Repr

/-- The key table (Table 10-1). An EMPTY slot is `none`. -/
structure KeyTable where
  slots       : Vector (Option WrapKey) 3
  response    : Option ResponseKey
  transport   : Option TransportKey
  highest     : Nat
  useLimit    : Nat
  pendingRoll : Bool
  retiring    : Nat
  campaign    : Option Nat
  identity    : Nat
deriving DecidableEq, Repr

/-- The key line receiver (R170): HUNT, RECEIVING with its receive frame buffer, or REPLYING with the reply frame. -/
inductive Receiver where
  | hunt
  | receiving (buffer : List Byte)
  | replying (frame : List Byte)
deriving DecidableEq, Repr

/-! ### Wrap engine (chapter 4) -/

/-- A WRAP in service with its working copy (R68). -/
structure WrapJob where
  lane    : Fin 16
  request : WrapRequest
  buffer  : Vector Byte 128
  key     : Key
  epoch   : Nat
  number  : Nat
  laneSeq : Nat
deriving DecidableEq, Repr

/-- An ADVISE in service with its working copy (R69). -/
structure AdviseJob where
  lane       : Fin 16
  generation : Nat
  origin     : Nat
  amount     : Nat
  cardClass  : Fin 8
  charge     : Nat
  key        : Key
  epoch      : Nat
  number     : Nat
  laneSeq    : Nat
deriving DecidableEq, Repr

/-- A CLOSE in service with its working copy (R71). -/
structure CloseJob where
  snapshot : Snapshot
  key      : Key
  epoch    : Nat
  number   : Nat
  laneSeq  : Nat
deriving DecidableEq, Repr

/-- A REWRAP in service with its working copy: target, the bytes of its slots, the keys and epoch of the take (R70). -/
structure RewrapJob where
  target  : Nat
  content : List Byte
  oldKey  : Key
  newKey  : Key
  epoch   : Nat
deriving DecidableEq, Repr

/-- An OPEN in service with its working copy: the response record and the response key of the take, if any (R72). -/
structure OpenJob where
  record : List Byte
  key    : Option ResponseKey
deriving DecidableEq, Repr

/-- The job in service (R59). -/
inductive Job where
  | wrap (job : WrapJob)
  | advise (job : AdviseJob)
  | close (job : CloseJob)
  | rewrap (job : RewrapJob)
  | opening (job : OpenJob)
deriving DecidableEq, Repr

/-- The wrap engine (R59): SERVING exactly when a job is in service; the two rotation pointers; the rewrap share
counter. The pending set is what its sources hold: see `Arbiter.lean`. -/
structure Engine where
  job   : Option Job
  aPtr  : Nat
  bPtr  : Nat
  share : Nat
deriving DecidableEq, Repr

/-! ### Frame ports (chapter 11) -/

/-- The events of Table 11-4, in the table's order. -/
inductive Event where
  | lane
  | offerReady
  | urgentReady
  | parked
  | storeHigh
  | storeFull
  | link
  | keyWear
  | keySpent
  | retired
  | late
  | forged
  | suspended
  | batchClosed
  | tamper
  | restarted
  | denied
  | overrun
  | heldOut
deriving DecidableEq, Repr

/-- The reasons of a recorded refusal (R184, 12.4). -/
inductive Reason where
  | denied
  | badWindow
  | heldOut
  | laneBusy
  | overrun
  | badCommand
  | badFormat
  | suspended
  | notHeld
  | notOffered
  | notParked
  | notSpilling
  | gone
  | busy
  | noKey
deriving DecidableEq, Repr

/-- The status of a read answer (R184). -/
inductive ReadStatus where
  | ok
  | empty
  | busy
  | denied
  | badWindow
  | heldOut
  | aborted
deriving DecidableEq, Repr

/-- The space and code of a header: a data window or a control item (R178). -/
structure Target where
  control : Bool
  code    : BitVec 5
deriving DecidableEq, Repr

/-- A write in the posted-write queue: its header and its data words (R181). -/
structure PostedWrite where
  target : Target
  index  : Word
  hdr    : Header
  words  : List DataWord
deriving DecidableEq, Repr

/-- What a read asks for: a data window, or a control item by its code (R180); a RING or control read with its number of
data words. -/
inductive ReadKind where
  | laneCmd (lane : Fin 16)
  | laneRsp (lane : Fin 16)
  | ring (count : Nat)
  | offer
  | spill
  | control (code : BitVec 5) (count : Nat)
deriving DecidableEq, Repr

/-- A read transaction. -/
structure ReadRequest where
  kind  : ReadKind
  index : Word
  hdr   : Header
deriving DecidableEq, Repr

/-- What the pace line holds (R182): a write that needs a queue place, an INTAKE write that needs an intake place too
(R181), or a read. -/
inductive HeldKind where
  | write (w : PostedWrite)
  | intake (w : PostedWrite)
  | read (r : ReadRequest)
deriving DecidableEq, Repr

/-- The held transaction of a port: what it is, the hold limit in force at its header (µs), and whether it is a read
that has reached the record store and waits there on a REWRAPPING candidate (R92, R110, R182).
DESIGN CHOICE: log entry 5. -/
structure Held where
  kind    : HeldKind
  limit   : Nat
  atStore : Bool
deriving DecidableEq, Repr

/-- A read answer: status, the header's tag, and the data words before the zeros (R184). -/
structure Answer where
  status : ReadStatus
  tag    : Byte
  words  : List Word
deriving DecidableEq, Repr

/-- The last refusal of a write-status item: window or item, burst form, index, tag and reason (R184, 12.4). -/
structure RecordedRefusal where
  target : Target
  form   : BurstForm
  index  : Word
  tag    : Byte
  reason : Reason
deriving DecidableEq, Repr

/-- A frame port (Table 11-1). `answer` is the latest read answer on the port; `sending` while no later header and no
reset has ended its transaction, so that data words of it may still be on their way (R188). The event status and mask
are numbered as 12.4 numbers them, bit e for row e of Table 11-4. DESIGN CHOICE: log entry 4. -/
structure Port where
  posted       : List PostedWrite
  held         : Option Held
  answer       : Option Answer
  sending      : Bool
  lastRefusal  : Option RecordedRefusal
  refusalCount : Nat
  truncated    : Bool
  events       : BitVec 32
  mask         : BitVec 32
deriving DecidableEq, Repr

/-! ### The whole machine -/

/-- The configuration items written from the uplink port (Table 11-3); the use limit stands in the key table. -/
structure Settings where
  onlineTimeout    : Nat
  highSlot         : Nat
  lowSlot          : Nat
  highEntry        : Nat
  lowEntry         : Nat
  offerTimeout     : Nat
  attemptLimit     : Nat
  ceiling          : Nat
  risk             : Vector RiskEntry 8
  missThreshold    : Nat
  recoverThreshold : Nat
  forgedLimit      : Nat
  rewrapShare      : Nat
  holdLimit        : Nat
deriving DecidableEq, Repr

/-- Whether the part runs, is held in reset by the RESET input (with the rest of a warm start to make at the release, or
after a cold start made at power-up), or has no main power (R104, R188). DESIGN CHOICE: log entry 13. -/
inductive RunState where
  | running
  | inReset
  | inColdReset
  | unpowered
deriving DecidableEq, Repr

/-- The state of the CW410. `resetInput` is the level of the RESET input, true while it is asserted (R104). `pending` is
the model's queue of waiting commands, first in, first out; `choices` is the model's count of the free choices made so
far, to which the free order of R92 and the free number of words of R188 are applied. -/
structure State where
  pending    : List Instr
  run        : RunState
  resetInput : Bool
  marker     : Bool
  lanes      : Vector Lane 16
  policy     : Vector PolicyEntry 15
  engine     : Engine
  store      : Store
  spill      : Spill
  meter      : Nat
  link       : Link
  intake     : Intake
  batch      : Batch
  keys       : KeyTable
  keyLine    : Receiver
  lp         : Port
  up         : Port
  cfg        : Settings
  choices    : Nat
deriving DecidableEq, Repr

/-- Why the machine stops with a fault: the manual gives the part no fault, so there is no constructor.
DESIGN CHOICE: log entry 28. -/
inductive Fault where
deriving DecidableEq, Repr

/-- Why a command is refused. -/
inductive Refusal where
  /-- Raised by `exec` for a command that has no meaning in the model yet: safe, the machine stops. -/
  | notModelled (mnemonic : String)
deriving DecidableEq, Repr

/-! ### The state after reset: a cold start's defaults -/

/-- A lane after a cold start (R22). -/
def Lane.cold : Lane where
  mode := .idle
  buffer := Vector.replicate 128 0
  written := Vector.replicate 128 false
  seq := 0
  generation := 0
  orphan := false
  result := .none
  attention := false

/-- The zero totals of a card class (Table 9-1). -/
def ClassTotals.zero : ClassTotals := ⟨0, 0, 0, 0, false⟩

/-- A port after a cold start (R188). -/
def Port.cold : Port where
  posted := []
  held := none
  answer := none
  sending := false
  lastRefusal := none
  refusalCount := 0
  truncated := false
  events := 0
  mask := 0

/-- The configuration after a cold start (R16, R88, R101, R123, R124, R135, R145, R59, R182). -/
def Settings.cold : Settings where
  onlineTimeout := 15
  highSlot := 3584
  lowSlot := 3072
  highEntry := 448
  lowEntry := 384
  offerTimeout := 30
  attemptLimit := 8
  ceiling := 0
  risk := Vector.replicate 8 ⟨0, 8⟩
  missThreshold := 3
  recoverThreshold := 2
  forgedLimit := 8
  rewrapShare := 8
  holdLimit := 50

/-- The record store after a cold start (R105). -/
def Store.cold : Store := ⟨[], 0, 0, 1, true, []⟩

/-- The batch accumulator after a cold start (R158). -/
def Batch.cold : Batch where
  number := 1
  classes := Vector.replicate 8 ClassTotals.zero
  recordCount := 0
  first := 1
  summaryLost := false
  closePending := false
  shopSeq := 0

/-- The key table after a cold start (R177). -/
def KeyTable.cold : KeyTable where
  slots := Vector.replicate 3 none
  response := none
  transport := none
  highest := 0
  useLimit := 1048576
  pendingRoll := false
  retiring := 0
  campaign := none
  identity := 0

/-- The machine right after a cold start: R22, R36, R80, R105, R117, R122, R137, R149, R158, R177, R188.
DESIGN CHOICE: log entry 23. -/
def State.reset : State where
  pending := []
  run := .running
  resetInput := false
  marker := true
  lanes := Vector.replicate 16 Lane.cold
  policy := Vector.replicate 15 ⟨.unset, false⟩
  engine := ⟨none, 0, 0, 0⟩
  store := Store.cold
  spill := ⟨none, []⟩
  meter := 0
  link := ⟨.doubt, 0, 0⟩
  intake := ⟨[], 0, false, 0, 0, none⟩
  batch := Batch.cold
  keys := KeyTable.cold
  keyLine := .hunt
  lp := Port.cold
  up := Port.cold
  cfg := Settings.cold
  choices := 0

end Sys2Proof.Machine
end

