-- ==== Sys2Proof/Machine/Bytes.lean ====
section
/-! DEFINITION. Byte order (12.1): quantities as bytes, most significant first, and bytes as data words. -/

namespace Sys2Proof.Machine

/-- The low `k` bytes of a quantity, most significant first (12.1). -/
def beBytes : Nat → Nat → List Byte
  | 0, _ => []
  | k + 1, n => beBytes k (n / 256) ++ [BitVec.ofNat 8 n]

/-- The quantity that bytes hold, most significant first (12.1). -/
def beNat (bs : List Byte) : Nat :=
  bs.foldl (fun a b => a * 256 + b.toNat) 0

/-- The first `n` bytes of a list, filled up with zero bytes (R189). -/
def padTo (n : Nat) (bs : List Byte) : List Byte :=
  bs.take n ++ List.replicate (n - bs.length) 0

/-- `n` bytes of a list from position `i` on. -/
def slice (bs : List Byte) (i n : Nat) : List Byte :=
  (bs.drop i).take n

/-- The quantity in the `n` bytes from position `i` on. -/
def fieldAt (bs : List Byte) (i n : Nat) : Nat :=
  beNat (slice bs i n)

/-- One data word from its two bytes, high byte first (12.1). -/
def wordOf (hi lo : Byte) : Word := hi ++ lo

/-- Bytes as data words, an odd last byte completed with a zero byte (R189, R191). -/
def wordsOf : List Byte → List Word
  | hi :: lo :: rest => wordOf hi lo :: wordsOf rest
  | [hi] => [wordOf hi 0]
  | [] => []

/-- The two bytes of a data word (12.1). -/
def bytesOfWord (w : Word) : List Byte :=
  [w.extractLsb' 8 8, w.extractLsb' 0 8]

/-- Data words as bytes, high byte first (12.1). -/
def bytesOfWords (ws : List Word) : List Byte :=
  ws.flatMap bytesOfWord

/-- ceil(x / y) by the manual's formula (3.1). -/
def ceilDiv (x y : Nat) : Nat := (x + y - 1) / y

/-- A value brought into a range by its nearer end (R88, R101). -/
def clamp (lo hi n : Nat) : Nat := max lo (min hi n)

/-- The record number after `n`: 4,294,967,295 is followed by 1 (R83). -/
def succRecord (n : Nat) : Nat := if n = Config.maxRecord then 1 else n + 1

/-- The record number before `n` in successor order (R83). -/
def predRecord (n : Nat) : Nat := if n ≤ 1 then Config.maxRecord else n - 1

/-- The lane sequence after `n`: 16,777,215 is followed by 0 (R14). -/
def succSeq (n : Nat) : Nat := if n = Config.maxCount then 0 else n + 1

/-- The lane sequence set back by one: 0 is followed by 16,777,215 (R14). -/
def predSeq (n : Nat) : Nat := if n = 0 then Config.maxCount else n - 1

/-- The batch number after `n`: 65,535 is followed by 1 (R153). -/
def succBatch (n : Nat) : Nat := if n = 65535 then 1 else n + 1

/-- The generation after `n`: 255 is followed by 0 (R9). -/
def succGeneration (n : Nat) : Nat := if n = 255 then 0 else n + 1

end Sys2Proof.Machine
end

