-- ==== Sys2Proof/Machine/Flags.lean ====
section
/-! DEFINITION. Events, masks, attention lines and the write-status items of the two ports (R184, R186). -/

namespace Sys2Proof.Machine

/-- The row of an event in Table 11-4, counting from 0: its bit in status and mask (R191). -/
def Event.row : Event → Nat
  | .lane => 0
  | .offerReady => 1
  | .urgentReady => 2
  | .parked => 3
  | .storeHigh => 4
  | .storeFull => 5
  | .link => 6
  | .keyWear => 7
  | .keySpent => 8
  | .retired => 9
  | .late => 10
  | .forged => 11
  | .suspended => 12
  | .batchClosed => 13
  | .tamper => 14
  | .restarted => 15
  | .denied => 16
  | .overrun => 17
  | .heldOut => 18

/-- The status word with only this event's bit set. -/
def Event.bit (e : Event) : BitVec 32 := 1#32 <<< e.row

/-- The bits of the events that a port has (Table 11-4). -/
def portEvents : PortId → BitVec 32
  | .lp => 0x0007C111#32
  | .up => 0x0007FFFE#32

/-- A port's state (Table 11-1). -/
def State.port (s : State) : PortId → Port
  | .lp => s.lp
  | .up => s.up

/-- Changes one port and nothing else. -/
def State.updPort (s : State) (p : PortId) (f : Port → Port) : State :=
  match p with
  | .lp => { s with lp := f s.lp }
  | .up => { s with up := f s.up }

/-- Posting an event on a port sets its status bit (R186). -/
def State.post (s : State) (p : PortId) (e : Event) : State :=
  s.updPort p fun q => { q with events := q.events ||| e.bit }

/-- Posting an event on both ports (R186). -/
def State.postBoth (s : State) (e : Event) : State :=
  (s.post .lp e).post .up e

/-- The attention line: active while a status bit is set whose mask bit is set (R186). It has no state of its own. -/
def State.attentionLine (s : State) (p : PortId) : Bool :=
  (s.port p).events &&& (s.port p).mask != 0

/-- The event that a recorded refusal posts (R184). -/
def Reason.event : Reason → Event
  | .heldOut => .heldOut
  | .overrun => .overrun
  | _ => .denied

/-- Recording a refusal: it replaces the last refusal, raises the count up to 255 and posts one event (R184). -/
def State.recordRefusal (s : State) (p : PortId) (target : Target) (index : Word) (hdr : Header) (reason : Reason) :
    State :=
  (s.updPort p fun q =>
    { q with
      lastRefusal := some ⟨target, hdr.form, index, hdr.tag, reason⟩
      refusalCount := min 255 (q.refusalCount + 1) }).post p reason.event

/-- What a transaction of `count` data words does to its port: past the 64th word the TRUNCATED flag is set and
OVERRUN is posted (R183). DEDUCED: log entry 15. -/
def State.noteBurst (s : State) (p : PortId) (count : Nat) : State :=
  if Config.burstLimit < count then
    (s.updPort p fun q => { q with truncated := true }).post p .overrun
  else s

/-- The answer of a read on a port, which the port then sends (R184). -/
def State.answerWith (s : State) (p : PortId) (status : ReadStatus) (hdr : Header) (words : List Word) : State :=
  s.updPort p fun q => { q with answer := some ⟨status, hdr.tag, words⟩, sending := true }

/-- A new header has arrived: a port carries one transaction at a time, so an earlier read's is over (11.1). -/
def State.endAnswer (s : State) (p : PortId) : State :=
  s.updPort p fun q => { q with sending := false }

/-- A read answered DENIED by its block: recorded, and answered with zero data words (R184). -/
def State.denyRead (s : State) (p : PortId) (target : Target) (index : Word) (hdr : Header) : State :=
  (s.recordRefusal p target index hdr .denied).answerWith p .denied hdr []

end Sys2Proof.Machine
end

