-- ==== Sys2Proof/Machine/Operands.lean ====
section
/-! DEFINITION. Operand forms: windows and control items, command words, data words as values, burst placement and the
clamping of written values. -/

namespace Sys2Proof.Machine

/-! ### Windows and control items (Table 12-1, 12.4) -/

def laneBufWindow : Target := ⟨false, 0x01⟩
def laneCmdWindow : Target := ⟨false, 0x02⟩
def laneRspWindow : Target := ⟨false, 0x03⟩
def spillWindow : Target := ⟨false, 0x04⟩
def ringWindow : Target := ⟨false, 0x05⟩
def offerWindow : Target := ⟨false, 0x06⟩
def confirmWindow : Target := ⟨false, 0x07⟩
def intakeWindow : Target := ⟨false, 0x08⟩
def shopCmdWindow : Target := ⟨false, 0x09⟩
def watermarksItem : Target := ⟨true, 0x0C⟩
def useLimitItem : Target := ⟨true, 0x14⟩
def eventStatusItem : Target := ⟨true, 0x17⟩
def eventMaskItem : Target := ⟨true, 0x18⟩
def writeStatusItem : Target := ⟨true, 0x19⟩

/-- The control item of a configuration write (12.4). -/
def configTarget : ConfigItem → Target
  | .onlineTimeout => ⟨true, 0x0B⟩
  | .offerTimeout => ⟨true, 0x0D⟩
  | .attemptLimit => ⟨true, 0x0E⟩
  | .ceiling => ⟨true, 0x0F⟩
  | .riskEntry _ => ⟨true, 0x10⟩
  | .missThreshold => ⟨true, 0x11⟩
  | .recoverThreshold => ⟨true, 0x12⟩
  | .forgedLimit => ⟨true, 0x13⟩
  | .rewrapShare => ⟨true, 0x15⟩
  | .holdLimit => ⟨true, 0x16⟩

/-- The index of a configuration write: the card class for the risk table, else what the header carries (R191). -/
def configIndex (item : ConfigItem) (index : Word) : Word :=
  match item with
  | .riskEntry c => BitVec.ofNat 16 c
  | _ => index

/-- The number of data words that a configuration item holds (12.4). -/
def configWords : ConfigItem → Nat
  | .ceiling => 2
  | .riskEntry _ => 3
  | _ => 1

/-- The index that names a port's event status, event mask or write-status item (R180). -/
def portIndex : PortId → Word
  | .lp => 0
  | .up => 1

/-- A lane as a header index (R179). -/
def laneIndex (lane : Fin 16) : Word := BitVec.ofNat 16 lane

/-! ### Data words -/

/-- A data word with both byte enables on: only LANE_BUF looks at the enables (R190). -/
def fullWord (w : Word) : DataWord := ⟨w, true, true⟩

/-- The values of data words, both bytes taken (R190). -/
def values (ws : List DataWord) : List Word := ws.map DataWord.value

/-- A 32-bit value in two data words, high word first (12.1). -/
def value32 (hi lo : Word) : Nat := hi.toNat * 65536 + lo.toNat

/-- The two data words of a 32-bit value, high word first (R95, R112). -/
def numberWords (n : BitVec 32) : List DataWord :=
  [fullWord (n.extractLsb' 16 16), fullWord (n.extractLsb' 0 16)]

/-- The words of a write cut to the burst limit (R183). -/
def shorten (ws : List DataWord) : List DataWord := ws.take Config.burstLimit

/-- A posted write cut to the burst limit (R183). -/
def PostedWrite.shortened (w : PostedWrite) : PostedWrite := { w with words := shorten w.words }

/-! ### Command words (Table 12-2) -/

def wrapWord : Word := 0x0001
def abandonWord : Word := 0x0002
def resetLaneWord : Word := 0x0003
def ackWord : Word := 0x0001
def nakWord : Word := 0x0002
def unparkWord : Word := 0x0003
def spillDoneWord : Word := 0x0001
def spillCancelWord : Word := 0x0002
def closeWord : Word := 0x0001
def linkDownWord : Word := 0x0002
def linkUpWord : Word := 0x0003
def rollWord : Word := 0x0004
def resumeWord : Word := 0x0005

/-- Why a LANE_CMD write is dropped: no data word, or a word that is none of the three commands (R10). -/
def laneCmdFault (ws : List Word) : Option Reason :=
  match ws with
  | [] => some .badFormat
  | c :: _ => if c = wrapWord ∨ c = abandonWord ∨ c = resetLaneWord then none else some .badCommand

/-- Why a CONFIRM write is dropped: fewer than 3 data words, or none of the three commands (R95). R95 gives no order of
the two: a short write whose first word names no command is BAD_FORMAT. DESIGN CHOICE: log entry 32. -/
def confirmFault (ws : List Word) : Option Reason :=
  match ws with
  | c :: _ :: _ :: _ => if c = ackWord ∨ c = nakWord ∨ c = unparkWord then none else some .badCommand
  | _ => some .badFormat

/-- Why a SPILL write is dropped: fewer than 3 data words, or neither command (R112). A short write whose first word names
no command is BAD_FORMAT. DESIGN CHOICE: log entry 32. -/
def spillFault (ws : List Word) : Option Reason :=
  match ws with
  | c :: _ :: _ :: _ => if c = spillDoneWord ∨ c = spillCancelWord then none else some .badCommand
  | _ => some .badFormat

/-- Why a SHOP_CMD write is dropped: no data word, or none of the five commands (R185). -/
def shopCmdFault (ws : List Word) : Option Reason :=
  match ws with
  | [] => some .badFormat
  | c :: _ =>
    if c = closeWord ∨ c = linkDownWord ∨ c = linkUpWord ∨ c = rollWord ∨ c = resumeWord then none
    else some .badCommand

/-- The record number of a CONFIRM or SPILL write: words 1 and 2, high word first (R95, R112). -/
def commandNumber (ws : List Word) : Nat :=
  match ws with
  | _ :: hi :: lo :: _ => value32 hi lo
  | _ => 0

/-! ### Burst placement (R3, R4, R94) -/

/-- The word offset of data word `k` of a burst to LANE_BUF: advancing, or around its 8-word chunk (R3, R4). -/
def burstOffset (form : BurstForm) (start k : Nat) : Nat :=
  match form with
  | .linear => start + k
  | .circular => start / 8 * 8 + (start % 8 + k) % 8

/-- The data words of a LANE_BUF burst with their word offsets, in order; those past offset 63 are dropped, and a
starting offset above 63 places none (R3, R4). -/
def burstPlaces (form : BurstForm) (start : Nat) (ws : List DataWord) : List (Nat × DataWord) :=
  if 63 < start then []
  else (ws.zipIdx.map fun wk => (burstOffset form start wk.2, wk.1)).filter fun ow => ow.1 ≤ 63

/-- Whether a LANE_BUF burst runs out of the buffer (R3, R4). DEDUCED: log entry 27. -/
def burstOverruns (form : BurstForm) (start count : Nat) : Bool :=
  decide (63 < start) || (decide (form = .linear) && decide (64 < start + count))

/-- The ring word of data word `k` of a RING read: advancing around the ring's 65,536 words, or around its 8-word
chunk (R94). -/
def ringWord (form : BurstForm) (start k : Nat) : Nat :=
  match form with
  | .linear => (start + k) % 65536
  | .circular => start / 8 * 8 + (start % 8 + k) % 8

/-! ### The window decoder (R179, R180, R191) -/

/-- Whether a data-space code names a window (Table 12-1). -/
def knownWindow (code : BitVec 5) : Bool := decide (1 ≤ code.toNat ∧ code.toNat ≤ 9)

/-- Whether a control-space code names an item (12.4). -/
def knownItem (code : BitVec 5) : Bool := decide (1 ≤ code.toNat ∧ code.toNat ≤ 0x19)

/-- Table 11-2: whether a port may make an access of this direction to a data window. -/
def windowAccess (p : PortId) (dir : Direction) (code : BitVec 5) : Bool :=
  match code.toNat, dir, p with
  | 1, .write, .lp => true
  | 2, _, .lp => true
  | 3, .read, .lp => true
  | 4, _, .lp => true
  | 5, .read, _ => true
  | 6, .read, .up => true
  | 7, .write, .up => true
  | 8, .write, .up => true
  | 9, .write, .up => true
  | _, _, _ => false

/-- Table 11-3: whether a port may write a control item. For the event status, the event mask and the write-status
item the index names the owning port (R180). -/
def itemWrite (p : PortId) (code : BitVec 5) (index : Word) : Bool :=
  if 0x0B ≤ code.toNat ∧ code.toNat ≤ 0x16 then decide (p = .up)
  else if 0x17 ≤ code.toNat ∧ code.toNat ≤ 0x19 then decide (index = portIndex p)
  else false

/-- Whether the index of a data window or control item is out of its range (R179, R191). RING indices are checked by
the record store (R94), and every other index is not examined. -/
def indexOut (control : Bool) (code : BitVec 5) (index : Word) : Bool :=
  if control then
    match code.toNat with
    | 0x03 => decide (15 < index.toNat)
    | 0x10 => decide (7 < index.toNat)
    | 0x17 => decide (1 < index.toNat)
    | 0x18 => decide (1 < index.toNat)
    | 0x19 => decide (1 < index.toNat)
    | _ => false
  else decide (1 ≤ code.toNat ∧ code.toNat ≤ 3) && decide (15 < index.toNat)

/-- Whether an access is refused DENIED at its header: wrong port, or a window or item without that access (R179,
R180). A write to a port item with an index above 1 names no port's item, so it is no access of the other port. -/
def accessDenied (p : PortId) (dir : Direction) (control : Bool) (code : BitVec 5) (index : Word) : Bool :=
  if control then
    match dir with
    | .read => false
    | .write => !itemWrite p code index && !(decide (0x17 ≤ code.toNat) && indexOut true code index)
  else !windowAccess p dir code

/-- The refusal that the window decoder makes at the header, if any (R179, R180). Where a DENIED case and an index out
of range meet, the manual does not say which reason stands: `Config.deniedFirst` is free. -/
def decoderRefusal (p : PortId) (dir : Direction) (control : Bool) (code : BitVec 5) (index : Word) : Option Reason :=
  if !(if control then knownItem code else knownWindow code) then some .badWindow
  else
    match accessDenied p dir control code index, indexOut control code index with
    | false, false => none
    | true, false => some .denied
    | false, true => some .badWindow
    | true, true => some (if Config.deniedFirst then .denied else .badWindow)

/-! ### Written values (R88, R123, R124) -/

/-- The four marks as stored: each clamped to its range, a low mark at most its high mark (R88). -/
def storedMarks (highSlot lowSlot highEntry lowEntry : Nat) (cfg : Settings) : Settings :=
  let hs := clamp 1 4095 highSlot
  let he := clamp 1 511 highEntry
  { cfg with
    highSlot := hs
    lowSlot := min hs (clamp 1 4095 lowSlot)
    highEntry := he
    lowEntry := min he (clamp 1 511 lowEntry) }

/-- A configuration item with its clamped value stored (R16, R101, R123, R124, R135, R145, R59, R182). The words are
the item's own; a list that is too short leaves the settings (the write was dropped before). -/
def storedConfig (item : ConfigItem) (ws : List Word) (cfg : Settings) : Settings :=
  match item, ws with
  | .onlineTimeout, w :: _ => { cfg with onlineTimeout := clamp 1 60 w.toNat }
  | .offerTimeout, w :: _ => { cfg with offerTimeout := clamp 5 255 w.toNat }
  | .attemptLimit, w :: _ => { cfg with attemptLimit := clamp 1 15 w.toNat }
  | .ceiling, hi :: lo :: _ => { cfg with ceiling := min 2147483647 (value32 hi lo) }
  | .riskEntry c, hi :: lo :: w :: _ =>
    { cfg with risk := cfg.risk.set c ⟨min 99999999 (value32 hi lo), w.toNat / 256 % 32⟩ }
  | .missThreshold, w :: _ => { cfg with missThreshold := clamp 1 15 w.toNat }
  | .recoverThreshold, w :: _ => { cfg with recoverThreshold := clamp 1 15 w.toNat }
  | .forgedLimit, w :: _ => { cfg with forgedLimit := min 255 w.toNat }
  | .rewrapShare, w :: _ => { cfg with rewrapShare := clamp 1 16 w.toNat }
  | .holdLimit, w :: _ => { cfg with holdLimit := clamp 1 255 w.toNat }
  | _, _ => cfg

end Sys2Proof.Machine
end

