-- ==== Sys2Proof/Machine/Record.lean ====
section
/-! DEFINITION. Clear records, the record checks and the wrapping arithmetic (chapters 2 and 3). -/

namespace Sys2Proof.Machine

/-! ### The head (R23, 12.3) -/

/-- Byte `i` of an assembly buffer. -/
def byteAt (buf : Vector Byte 128) (i : Nat) : Byte := buf[i]?.getD 0

/-- The `n` bytes of a buffer from position `i` on. -/
def bytesAt (buf : Vector Byte 128) (i n : Nat) : List Byte := (buf.toList.drop i).take n

/-- The kind of a clear record, none for an undefined encoding (12.3). -/
def headKind (buf : Vector Byte 128) : Option TxKind :=
  match (byteAt buf 0).toNat with
  | 1 => some .sale
  | 2 => some .refund
  | 3 => some .reversal
  | _ => none

/-- The mode of a clear record (12.3). -/
def headMode (buf : Vector Byte 128) : Option Mode :=
  match (byteAt buf 1).toNat with
  | 1 => some .online
  | 2 => some .offline
  | _ => none

/-- The fallback-allowed flag: bit 0 of the flags (12.3). -/
def headFallback (buf : Vector Byte 128) : Bool := (byteAt buf 2).getLsbD 0

/-- The card class (12.3). -/
def headClass (buf : Vector Byte 128) : Option (Fin 8) :=
  if h : (byteAt buf 3).toNat < 8 then some ⟨_, h⟩ else none

/-- Whether the entry mode is one of the four defined (12.3). -/
def headEntryModeOk (buf : Vector Byte 128) : Bool :=
  decide (1 ≤ (byteAt buf 4).toNat ∧ (byteAt buf 4).toNat ≤ 4)

/-- The declared length (12.3). -/
def headLength (buf : Vector Byte 128) : Nat := (byteAt buf 5).toNat

/-- The amount (12.3). -/
def headAmount (buf : Vector Byte 128) : Nat := beNat (bytesAt buf 6 4)

/-! ### The field list (R25, R26) -/

/-- A field as the walk finds it: code, requested class, and where its value stands. -/
structure Field where
  code      : Nat
  requested : FieldClass
  start     : Nat
  length    : Nat
deriving DecidableEq, Repr

/-- A field class from its two bits (12.3). -/
def classOfBits (n : Nat) : FieldClass :=
  match n % 4 with
  | 0 => .clear
  | 1 => .truncate
  | 2 => .wrap
  | _ => .drop

/-- The two bits of a field class (12.3). -/
def FieldClass.bits : FieldClass → Nat
  | .clear => 0
  | .truncate => 1
  | .wrap => 2
  | .drop => 3

/-- The walk of R25 from code byte position `pos`, `none` at a format fault. A field takes at least two of the 112 list
bytes, so 57 steps always reach the end. -/
def walkFields (buf : Vector Byte 128) (declared : Nat) : Nat → Nat → Option (List Field)
  | 0, _ => none
  | fuel + 1, pos =>
    if pos = declared then some []
    else
      let c := (byteAt buf pos).toNat
      if 64 ≤ c then none
      else if c % 16 = 0 then some []
      else if declared ≤ pos + 1 then none
      else
        let len := (byteAt buf (pos + 1)).toNat
        if declared < pos + 2 + len then none
        else
          (walkFields buf declared fuel (pos + 2 + len)).map fun rest =>
            ⟨c % 16, classOfBits (c / 16), pos + 2, len⟩ :: rest

/-- The field list of a record, `none` at a format fault (R25): the walk starts at byte 16. -/
def fieldList (buf : Vector Byte 128) : Option (List Field) :=
  walkFields buf (headLength buf) 57 16

/-! ### Class resolution (R37) -/

/-- The policy entry of a field code 1 to 15 (R34). -/
def policyFor (policy : Vector PolicyEntry 15) (code : Nat) : PolicyEntry :=
  policy[code - 1]?.getD ⟨.unset, false⟩

/-- The field class that a shop class stands for: UNSET counts as WRAP (R37). -/
def ShopClass.asClass : ShopClass → FieldClass
  | .unset => .wrap
  | .clear => .clear
  | .truncate => .truncate
  | .wrap => .wrap
  | .drop => .drop

/-- The more protective of two classes, in the order CLEAR < TRUNCATE < WRAP < DROP (2.4). -/
def moreProtective (a b : FieldClass) : FieldClass := if a.bits < b.bits then b else a

/-- The effective class of a field (R37). -/
def effectiveClass (policy : Vector PolicyEntry 15) (f : Field) : FieldClass :=
  moreProtective (policyFor policy f.code).shopClass.asClass f.requested

/-! ### Lengths and slot count (R39 to R42) -/

/-- The view length of a TRUNCATE field (R39). -/
def viewLength (len : Nat) : Nat := if 9 ≤ len then 4 else 0

/-- What a field adds to B_raw (R40). -/
def bodyBytes (fc : Field × FieldClass) : Nat :=
  match fc.2 with
  | .wrap => 2 + fc.1.length
  | .truncate => 2 + fc.1.length
  | _ => 0

/-- What a field adds to C_raw (R41). -/
def clearBytes (fc : Field × FieldClass) : Nat :=
  match fc.2 with
  | .clear => 2 + fc.1.length
  | .truncate => 2 + viewLength fc.1.length
  | _ => 0

/-- Lb from B_raw (R40). -/
def bodyLength (raw : Nat) : Nat := 16 * ceilDiv (raw + 1) 16

/-- Lc from C_raw (R41). -/
def clearLength (raw : Nat) : Nat := 16 * ceilDiv raw 16

/-- W (R42). -/
def recordLength (lc lb : Nat) : Nat := 32 + lc + lb + 16

/-- The slot count n (R42). -/
def slotCount (w : Nat) : Nat := ceilDiv w Config.slotBytes

/-- Lb of a field list with its classes (R40). -/
def bodyLengthOf (fcs : List (Field × FieldClass)) : Nat := bodyLength (fcs.map bodyBytes).sum

/-- Lc of a field list with its classes (R41). -/
def clearLengthOf (fcs : List (Field × FieldClass)) : Nat := clearLength (fcs.map clearBytes).sum

/-! ### The seven record checks (R27 to R33, R43) -/

/-- The refusal codes of the record checks (Table 2-2). -/
inductive CheckCode where
  | incomplete
  | badFormat
  | badAmount
  | badField
  | missingField
  | noContact
deriving DecidableEq, Repr

/-- The code as a last result (Table 1-3). -/
def CheckCode.result : CheckCode → LaneResult
  | .incomplete => .incomplete
  | .badFormat => .badFormat
  | .badAmount => .badAmount
  | .badField => .badField
  | .missingField => .missingField
  | .noContact => .noContact

/-- Whether bytes `i` to `i + n - 1` are all marked WRITTEN. -/
def allWritten (written : Vector Bool 128) (i n : Nat) : Bool :=
  (List.range n).all fun k => written[i + k]?.getD false

/-- Check 1, completeness (R28). -/
def complete (buf : Vector Byte 128) (written : Vector Bool 128) : Bool :=
  allWritten written 0 16 &&
    (!decide (16 ≤ headLength buf ∧ headLength buf ≤ 128) || allWritten written 16 (headLength buf - 16))

/-- Check 4, the amount range of a kind (R30). -/
def amountOk (kind : TxKind) (amount : Nat) : Bool :=
  match kind with
  | .sale => decide (1 ≤ amount ∧ amount ≤ 99999999)
  | _ => decide (amount ≤ 99999999)

/-- Whether some field whose policy entry is required resolves to DROP (R31). -/
def requiredDropped (policy : Vector PolicyEntry 15) (fields : List Field) : Bool :=
  fields.any fun f => (policyFor policy f.code).required && decide (effectiveClass policy f = .drop)

/-- Whether some required code has no field (R32). -/
def requiredMissing (policy : Vector PolicyEntry 15) (fields : List Field) : Bool :=
  (List.range 15).any fun k =>
    (policyFor policy (k + 1)).required && !(fields.any fun f => f.code == k + 1)

/-- Check 7 and the OUTAGE conversion: the frozen mode, or none for NO_CONTACT (R33). -/
def frozenMode (link : LinkState) (mode : Mode) (fallback : Bool) : Option Mode :=
  match mode, link with
  | .offline, _ => some .offline
  | .online, .outage => if fallback then some .offline else none
  | .online, _ => some .online

/-- The frozen fallback flag: the head's for a SALE, else CLEAR (R24). -/
def frozenFallback (kind : TxKind) (head : Bool) : Bool := decide (kind = .sale) && head

/-- The request that a record freezes, once its head and field list are read (R7, R30 to R33, R43): checks 3 (the
size bound) to 7. -/
def freezeFields (buf : Vector Byte 128) (policy : Vector PolicyEntry 15) (link : LinkState) (generation : Nat)
    (kind : TxKind) (mode : Mode) (cardClass : Fin 8) (fields : List Field) : Except CheckCode WrapRequest :=
  let classes := fields.map (effectiveClass policy)
  let lb := bodyLengthOf (fields.zip classes)
  let lc := clearLengthOf (fields.zip classes)
  if 208 < lc + lb then .error .badFormat
  else if !amountOk kind (headAmount buf) then .error .badAmount
  else if requiredDropped policy fields then .error .badField
  else if decide (kind ≠ .reversal) && requiredMissing policy fields then .error .missingField
  else
    match frozenMode link mode (headFallback buf) with
    | none => .error .noContact
    | some m =>
      .ok ⟨kind, m, frozenFallback kind (headFallback buf), cardClass, headAmount buf, classes,
        slotCount (recordLength lc lb), generation⟩

/-- The seven record checks in order: the first failing code, or the request to freeze (R27, R7). -/
def recordChecks (buf : Vector Byte 128) (written : Vector Bool 128) (policy : Vector PolicyEntry 15)
    (link : LinkState) (generation : Nat) : Except CheckCode WrapRequest :=
  if !complete buf written then .error .incomplete
  else if headLength buf < 16 ∨ 128 < headLength buf then .error .badFormat
  else
    match headKind buf, headMode buf, headClass buf, headEntryModeOk buf, fieldList buf with
    | some kind, some mode, some c, true, some fields =>
      freezeFields buf policy link generation kind mode c fields
    | _, _, _, _, _ => .error .badFormat

/-! ### Building the wrapped record (R38 to R47, R54, R55) -/

/-- The code byte of a field in a wrapped record: its code with its effective class (12.3). -/
def codeByte (fc : Field × FieldClass) : Byte := BitVec.ofNat 8 (fc.2.bits * 16 + fc.1.code)

/-- A field in the enciphered body: WRAP and TRUNCATE whole, the others absent (R38). -/
def bodyField (buf : Vector Byte 128) (fc : Field × FieldClass) : List Byte :=
  let whole := codeByte fc :: BitVec.ofNat 8 fc.1.length :: bytesAt buf fc.1.start fc.1.length
  match fc.2 with
  | .wrap => whole
  | .truncate => whole
  | _ => []

/-- A field in the clear part: CLEAR whole, TRUNCATE by its view, the others absent (R38, R39). -/
def clearField (buf : Vector Byte 128) (fc : Field × FieldClass) : List Byte :=
  match fc.2 with
  | .clear => codeByte fc :: BitVec.ofNat 8 fc.1.length :: bytesAt buf fc.1.start fc.1.length
  | .truncate =>
    let v := viewLength fc.1.length
    codeByte fc :: BitVec.ofNat 8 v :: bytesAt buf (fc.1.start + fc.1.length - v) v
  | _ => []

/-- The plain body of a WRAP record: its fields, the end byte and zeros up to Lb (R40). -/
def plainBody (buf : Vector Byte 128) (fcs : List (Field × FieldClass)) : List Byte :=
  padTo (bodyLengthOf fcs) (fcs.flatMap (bodyField buf) ++ [0])

/-- The clear part of a WRAP record: its fields and zeros up to Lc (R41). -/
def clearPart (buf : Vector Byte 128) (fcs : List (Field × FieldClass)) : List Byte :=
  padTo (clearLengthOf fcs) (fcs.flatMap (clearField buf))

/-- The items of a wrapped header (R45). -/
structure HeaderItems where
  identity  : Nat
  number    : Nat
  lane      : Nat
  laneSeq   : Nat
  epoch     : Nat
  batch     : Nat
  kind      : RecordKind
  offline   : Bool
  fallback  : Bool
  cardClass : Nat
  entryMode : Byte
  amount    : Nat
  tillRef   : List Byte
  lc        : Nat
  lb        : Nat
deriving DecidableEq, Repr

/-- The code of a record kind (12.3). -/
def RecordKind.code : RecordKind → Nat
  | .sale => 1
  | .refund => 2
  | .reversal => 3
  | .advice => 4
  | .summary => 5

/-- The mode flags byte: bit 0 offline, bit 1 fallback (12.3). -/
def modeFlags (offline fallback : Bool) : Nat := offline.toNat + 2 * fallback.toNat

/-- The 32 bytes of a wrapped header (R45, 12.3). -/
def headerBytes (h : HeaderItems) : List Byte :=
  beBytes 4 h.identity ++ beBytes 4 h.number ++ beBytes 1 h.lane ++ beBytes 3 h.laneSeq ++ beBytes 2 h.epoch ++
    beBytes 2 h.batch ++ [0, 0] ++ beBytes 1 h.kind.code ++ beBytes 1 (modeFlags h.offline h.fallback) ++
    beBytes 1 h.cardClass ++ [h.entryMode] ++ beBytes 4 h.amount ++ padTo 4 h.tillRef ++ beBytes 1 h.lc ++
    beBytes 1 h.lb

/-- A body enciphered under a key: as many bytes as the plain body (3.7). -/
def encipher (k : Key) (plain : List Byte) : List Byte := Config.bodyCipher.encipher k plain

/-- A body deciphered under a key: as many bytes as the enciphered body (3.7). -/
def decipher (k : Key) (body : List Byte) : List Byte := Config.bodyCipher.decipher k body

/-- The 16-byte tag over the given bytes (3.7). -/
def tagOf (k : Key) (data : List Byte) : List Byte := Config.tagging.tag k data

/-- The sealed record: header, clear part, enciphered body, tag, and zero filler up to `slots` slots (R55). -/
def sealRecord (recordKey : Key) (header clear plain : List Byte) (slots : Nat) : List Byte :=
  let covered := header ++ clear ++ encipher recordKey plain
  padTo (Config.slotBytes * slots) (covered ++ tagOf recordKey covered)

/-- The kind of a stored record from its clear record's kind. -/
def TxKind.stored : TxKind → RecordKind
  | .sale => .sale
  | .refund => .refund
  | .reversal => .reversal

/-- The fields of a WRAP in service with their frozen classes (R26, R44). -/
def WrapJob.fields (j : WrapJob) : List (Field × FieldClass) :=
  ((fieldList j.buffer).getD []).zip j.request.classes

/-- W of a WRAP in service, computed again from the working copy (R44). -/
def WrapJob.recordLength (j : WrapJob) : Nat :=
  Machine.recordLength (clearLengthOf j.fields) (bodyLengthOf j.fields)

/-- The wrapped record of a WRAP at its completion (R45, R55): identity and batch as they stand then. -/
def WrapJob.sealed (j : WrapJob) (identity batch : Nat) : List Byte :=
  let fcs := j.fields
  sealRecord (Config.deriveKey j.key .record j.number j.lane j.laneSeq)
    (headerBytes
      { identity := identity, number := j.number, lane := j.lane, laneSeq := j.laneSeq, epoch := j.epoch
        batch := batch, kind := j.request.kind.stored, offline := decide (j.request.mode = .offline)
        fallback := j.request.fallback, cardClass := j.request.cardClass, entryMode := byteAt j.buffer 4
        amount := j.request.amount, tillRef := bytesAt j.buffer 10 4
        lc := clearLengthOf fcs, lb := bodyLengthOf fcs })
    (clearPart j.buffer fcs) (plainBody j.buffer fcs) j.request.slots

/-- The plain body of an ADVICE (R46): 13 bytes, the end byte and 2 zero bytes. -/
def adviceBody (j : AdviseJob) : List Byte :=
  beBytes 4 j.origin ++ beBytes 4 j.amount ++ beBytes 1 j.cardClass ++ beBytes 4 j.charge ++ [0, 0, 0]

/-- The wrapped record of an ADVISE at its completion (R45, R46, R55). -/
def AdviseJob.sealed (j : AdviseJob) (identity batch : Nat) : List Byte :=
  sealRecord (Config.deriveKey j.key .record j.number j.lane j.laneSeq)
    (headerBytes
      { identity := identity, number := j.number, lane := j.lane, laneSeq := j.laneSeq, epoch := j.epoch
        batch := batch, kind := .advice, offline := true, fallback := false, cardClass := j.cardClass
        entryMode := 0, amount := j.amount, tillRef := [], lc := 0, lb := 16 })
    [] (adviceBody j) 2

/-- The four values of a card class in a SUMMARY (R47). -/
def classBytes (c : ClassTotals) : List Byte :=
  beBytes 3 c.debitCount ++ beBytes 5 c.debitTotal ++ beBytes 3 c.creditCount ++ beBytes 5 c.creditTotal

/-- One flag per card class in a byte, bit c for class c (12.3, R191). -/
def saturationByte (classes : Vector ClassTotals 8) : Byte :=
  BitVec.ofNat 8 ((classes.toList.zipIdx.map fun ck => ck.1.saturated.toNat * 2 ^ ck.2).sum)

/-- The plain body of a SUMMARY: 144 bytes, the end byte and 15 zero bytes (R47). -/
def summaryBody (s : Snapshot) : List Byte :=
  s.classes.toList.flatMap classBytes ++ beBytes 2 s.number ++ beBytes 4 s.first ++ beBytes 4 s.last ++
    beBytes 4 s.recordCount ++ [saturationByte s.classes] ++ beBytes 1 s.summaryLost.toNat ++ List.replicate 16 0

/-- The wrapped record of a CLOSE at its completion (R45, R47, R74): lane 16, the closed batch. -/
def CloseJob.sealed (j : CloseJob) (identity : Nat) : List Byte :=
  sealRecord (Config.deriveKey j.key .record j.number 16 j.laneSeq)
    (headerBytes
      { identity := identity, number := j.number, lane := 16, laneSeq := j.laneSeq, epoch := j.epoch
        batch := j.snapshot.number, kind := .summary, offline := true, fallback := false, cardClass := 0
        entryMode := 0, amount := 0, tillRef := [], lc := 0, lb := 160 })
    [] (summaryBody j.snapshot) 7

/-- The rewrapped record (R56): the stored body deciphered under the old per-record key and enciphered under the new,
the header's epoch replaced, a new tag, the same lengths. Lc and Lb are read from the stored header. -/
def RewrapJob.sealed (j : RewrapJob) (e : Entry) : List Byte :=
  let lc := fieldAt j.content 30 1
  let lb := fieldAt j.content 31 1
  let oldKey := Config.deriveKey j.oldKey .record e.number e.lane e.laneSeq
  let newKey := Config.deriveKey j.newKey .record e.number e.lane e.laneSeq
  let header := slice j.content 0 12 ++ beBytes 2 j.epoch ++ slice j.content 14 18
  sealRecord newKey header (slice j.content 32 lc) (decipher oldKey (slice j.content (32 + lc) lb)) e.slots

/-! ### Exposure charge (R48, R49) -/

/-- Whether a WRAP take makes an exposure decision (R48): an OFFLINE SALE. -/
def WrapRequest.needsDecision (r : WrapRequest) : Bool :=
  decide (r.kind = .sale ∧ r.mode = .offline)

/-- The charge of an amount under a weight in eighths (R49). -/
def chargeFor (amount weight : Nat) : Nat := ceilDiv (amount * weight) 8

/-- The exposure decision: the charge to accept, or the reason to refuse (R49). -/
def exposureDecision (risk : RiskEntry) (ceiling meter amount : Nat) : Except RefuseReason Nat :=
  if risk.floor = 0 ∨ risk.floor < amount then .error .floor
  else if ceiling < meter + chargeFor amount risk.weight then .error .ceiling
  else .ok (chargeFor amount risk.weight)

/-! ### Settlement totals (R52, R53) -/

/-- Adds to a value held at most at its bound; the flag says whether the addition was clamped (R52, R53). -/
def saturatingAdd (bound value add : Nat) : Nat × Bool :=
  if bound < value + add then (bound, true) else (value + add, false)

/-- A class's totals with a completed record added (R52, R53). -/
def ClassTotals.add (c : ClassTotals) (kind : TxKind) (amount : Nat) : ClassTotals :=
  match kind with
  | .sale =>
    let n := saturatingAdd Config.maxCount c.debitCount 1
    let t := saturatingAdd Config.maxTotal c.debitTotal amount
    { c with debitCount := n.1, debitTotal := t.1, saturated := c.saturated || n.2 || t.2 }
  | _ =>
    let n := saturatingAdd Config.maxCount c.creditCount 1
    let t := saturatingAdd Config.maxTotal c.creditTotal amount
    { c with creditCount := n.1, creditTotal := t.1, saturated := c.saturated || n.2 || t.2 }

/-- The batch with a completed WRAP record added: its class's totals and the record count (R151). -/
def Batch.addRecord (b : Batch) (kind : TxKind) (cardClass : Fin 8) (amount : Nat) : Batch :=
  { b with
    classes := b.classes.set cardClass ((b.classes[cardClass]).add kind amount)
    recordCount := min Config.maxCount (b.recordCount + 1) }

end Sys2Proof.Machine
end

