-- ==== Sys2Proof/Machine/Ops.lean ====
section
/-! DEFINITION. Named operations over the state: one update for each field, the ring's memory, the directory, lanes,
the link monitor and the exposure meter. -/

namespace Sys2Proof.Machine

/-! ### One update for each field -/

def State.setRun (s : State) (r : RunState) : State := { s with run := r }
def State.setResetInput (s : State) (b : Bool) : State := { s with resetInput := b }
def State.setMarker (s : State) (b : Bool) : State := { s with marker := b }
def State.updLanes (s : State) (f : Vector Lane 16 → Vector Lane 16) : State := { s with lanes := f s.lanes }
def State.setPolicy (s : State) (p : Vector PolicyEntry 15) : State := { s with policy := p }
def State.updEngine (s : State) (f : Engine → Engine) : State := { s with engine := f s.engine }
def State.updStore (s : State) (f : Store → Store) : State := { s with store := f s.store }
def State.updSpill (s : State) (f : Spill → Spill) : State := { s with spill := f s.spill }
def State.setMeter (s : State) (e : Nat) : State := { s with meter := e }
def State.setLink (s : State) (l : Link) : State := { s with link := l }
def State.updIntake (s : State) (f : Intake → Intake) : State := { s with intake := f s.intake }
def State.updBatch (s : State) (f : Batch → Batch) : State := { s with batch := f s.batch }
def State.updKeys (s : State) (f : KeyTable → KeyTable) : State := { s with keys := f s.keys }
def State.setKeyLine (s : State) (r : Receiver) : State := { s with keyLine := r }
def State.setCfg (s : State) (c : Settings) : State := { s with cfg := c }
def State.nextChoice (s : State) : State := { s with choices := s.choices + 1 }

/-- Changes one lane and nothing else. -/
def State.updLane (s : State) (l : Fin 16) (f : Lane → Lane) : State :=
  s.updLanes fun ls => ls.set l (f ls[l])

/-- A command that the part takes only while it runs: held in reset or without power it takes none (R104).
DESIGN CHOICE: log entry 2. -/
def whenRunning (s : State) (f : State → State) : State :=
  if s.run = .running then f s else s

/-! ### The ring's memory (R81, R105) -/

/-- What an unlisted ring byte reads as: 0x00, the cold start's contents (R105). DEDUCED: log entry 30. -/
def Memory.blank : Byte := 0

/-- The byte at an address. -/
def Memory.read (m : List Host.Cell) (a : Nat) : Byte :=
  match m with
  | [] => Memory.blank
  | (b, v) :: rest => if b = a then v else Memory.read rest a

/-- The memory with one byte written, in canonical form: addresses rising, no entry equal to the blank byte. -/
def Memory.write (m : List Host.Cell) (a : Nat) (v : Byte) : List Host.Cell :=
  match m with
  | [] => if v = Memory.blank then [] else [(a, v)]
  | (b, w) :: rest =>
    if b < a then (b, w) :: Memory.write rest a v
    else if b = a then (if v = Memory.blank then rest else (a, v) :: rest)
    else (if v = Memory.blank then (b, w) :: rest else (a, v) :: (b, w) :: rest)

/-- The memory with bytes written one after another around the ring (R81). -/
def Memory.writeRun (m : List Host.Cell) (a : Nat) : List Byte → List Host.Cell
  | [] => m
  | v :: vs => Memory.writeRun (Memory.write m (a % Config.ringBytes) v) (a + 1) vs

/-- `n` bytes read one after another around the ring (R81). -/
def Memory.readRun (m : List Host.Cell) (a n : Nat) : List Byte :=
  (List.range n).map fun k => Memory.read m ((a + k) % Config.ringBytes)

/-- The canonical form: addresses strictly rising from a bound on, none listed with the blank byte, all in the ring. -/
def Memory.wfFrom : Nat → List Host.Cell → Bool
  | _, [] => true
  | lo, (a, v) :: rest =>
    decide (lo ≤ a) && decide (a < Config.ringBytes) && decide (v ≠ Memory.blank) && Memory.wfFrom (a + 1) rest

/-- The canonical form of the ring's memory. -/
def Memory.wf (m : List Host.Cell) : Bool := Memory.wfFrom 0 m

/-- Ring word `w` as a data word: the lower-addressed byte is the high byte (R94). -/
def ringDataWord (m : List Host.Cell) (w : Nat) : Word :=
  wordOf (Memory.read m (2 * w)) (Memory.read m (2 * w + 1))

/-! ### The directory (R82 to R87) -/

/-- Whether an entry in this state is out of custody (Table 5-2). -/
def EntryState.out : EntryState → Bool
  | .spilled => true
  | .confirmed => true
  | _ => false

/-- The state that a prior state stands for (R70, R75, R79). -/
def Prior.state : Prior → EntryState
  | .held => .held
  | .parked => .parked

/-- Whether an entry is OFFERED. -/
def EntryState.isOffered : EntryState → Bool
  | .offered _ => true
  | _ => false

/-- The entry with a record number (R83). -/
def findEntry (n : Nat) (d : List Entry) : Option Entry := d.find? fun e => e.number == n

/-- Changes the entry with a record number, and no other (R83). -/
def updEntry (n : Nat) (f : Entry → Entry) : List Entry → List Entry
  | [] => []
  | e :: es => if e.number = n then f e :: es else e :: updEntry n f es

/-- Slots used: the sum of the entries' slot counts (R81). -/
def Store.slotsUsed (st : Store) : Nat := (st.directory.map Entry.slots).sum

/-- Entries used (R87). -/
def Store.entriesUsed (st : Store) : Nat := st.directory.length

/-- Free slots (R66). -/
def Store.freeSlots (st : Store) : Nat := Config.ringSlots - st.slotsUsed

/-- Free directory entries (R66). -/
def Store.freeEntries (st : Store) : Nat := Config.directoryMax - st.entriesUsed

/-- Changes the directory entry with a record number. -/
def Store.updEntry (st : Store) (n : Nat) (f : Entry → Entry) : Store :=
  { st with directory := Machine.updEntry n f st.directory }

/-- Whether a high mark is reached (R89). -/
def highReached (st : Store) (cfg : Settings) : Bool :=
  decide (cfg.highSlot ≤ st.slotsUsed) || decide (cfg.highEntry ≤ st.entriesUsed)

/-- Whether both measures are below their low marks (R89). -/
def bothLow (st : Store) (cfg : Settings) : Bool :=
  decide (st.slotsUsed < cfg.lowSlot) && decide (st.entriesUsed < cfg.lowEntry)

/-- Evaluates the high marks: STORE_HIGH on both ports once, while ARMED (R89). -/
def State.evalHigh (s : State) : State :=
  if s.store.armed && highReached s.store s.cfg then
    (s.updStore fun st => { st with armed := false }).postBoth .storeHigh
  else s

/-- Evaluates the low marks: the flag becomes ARMED again (R89). -/
def State.evalLow (s : State) : State :=
  if !s.store.armed && bothLow s.store s.cfg then s.updStore fun st => { st with armed := true } else s

/-- Allocates an entry at the tail and advances counter and tail slot (R84). -/
def Store.allocate (st : Store) (e : Entry) : Store :=
  { st with
    directory := st.directory ++ [{ e with number := st.counter, firstSlot := st.tailSlot, state := .writing }]
    tailSlot := (st.tailSlot + e.slots) % Config.ringSlots
    counter := succRecord st.counter }

/-- Removes the tail entry, as an abandonment does, and sets tail slot and counter back (R85). -/
def Store.removeTail (st : Store) (e : Entry) : Store :=
  let d := st.directory.dropLast
  { st with
    directory := d
    headSlot := if d.isEmpty then e.firstSlot else st.headSlot
    tailSlot := e.firstSlot
    counter := e.number }

/-- The entries that a reclaim removes: the CONFIRMED and SPILLED ones at the head (R86). -/
def reclaimed (d : List Entry) : List Entry := d.takeWhile fun e => e.state.out

/-- The directory after a reclaim (R86). -/
def reclaimRest (d : List Entry) : List Entry := d.dropWhile fun e => e.state.out

/-- Reclaim: the entries go, the head slot advances past their slots, or meets the tail slot in an empty directory
(R86, R81). -/
def Store.reclaim (st : Store) : Store :=
  { st with
    directory := reclaimRest st.directory
    headSlot :=
      if (reclaimRest st.directory).isEmpty then st.tailSlot
      else (st.headSlot + ((reclaimed st.directory).map Entry.slots).sum) % Config.ringSlots }

/-- Reclaim with the low marks evaluated for the fall in use, where the head entry can go (R86).
DEDUCED: log entry 29. -/
def State.reclaim (s : State) : State :=
  if (reclaimed s.store.directory).isEmpty then s
  else (s.updStore Store.reclaim).evalLow

/-- Clears the awaiting flag of the entry with a record number, if it is present (R102). -/
def State.clearAwaiting (s : State) (n : Nat) : State :=
  s.updStore fun st => st.updEntry n fun e => { e with awaiting := false }

/-- The slots of an entry, around the ring (R81). -/
def Entry.owns (e : Entry) (slot : Nat) : Bool :=
  decide ((slot + Config.ringSlots - e.firstSlot) % Config.ringSlots < e.slots)

/-- The number of the record in OFFERED (R87). -/
def offeredCount (d : List Entry) : Nat := d.countP fun e => e.state.isOffered

/-- Whether an entry counts as parked: PARKED, or REWRAPPING from PARKED (R87). -/
def Entry.countsParked (e : Entry) : Bool := decide (e.state = .parked ∨ e.state = .rewrapping .parked)

/-! ### Lanes (chapter 1) -/

/-- The lane's buffer cleared and every mark UNWRITTEN (R8, R9, R12). -/
def Lane.clearBuffer (l : Lane) : Lane :=
  { l with buffer := Vector.replicate 128 0, written := Vector.replicate 128 false }

/-- A result that a lane gets without attention: the outcome of a lane command (1.3). -/
def State.laneResult (s : State) (l : Fin 16) (r : LaneResult) : State :=
  s.updLane l fun x => { x with result := r }

/-- A lane outcome that arrives from elsewhere: the lane changes, its attention bit is set, LANE is posted (R20). -/
def State.laneOutcome (s : State) (l : Fin 16) (f : Lane → Lane) : State :=
  (s.updLane l fun x => { f x with attention := true }).post .lp .lane

/-- An orphan completion: the lane only clears its orphan flag (R15). -/
def State.clearOrphan (s : State) (l : Fin 16) : State :=
  s.updLane l fun x => { x with orphan := false }

/-- Whether a completion of a generation is the lane's own (R15). -/
def Lane.owns (l : Lane) (generation : Nat) : Bool := decide (l.generation = generation) && !l.orphan

/-- Whether a job of the lane is in service: a WRAP in WRAPPING, or a taken ADVISE in FALLBACK (R10). -/
def Lane.inService (l : Lane) : Bool :=
  match l.mode with
  | .wrapping => true
  | .fallback a => a.taken
  | _ => false

/-! ### The link monitor (R132 to R136) -/

/-- A miss reaching the link monitor (R132). -/
def Link.miss (l : Link) (threshold : Nat) : Link :=
  match l.state with
  | .contact => if threshold ≤ 1 then ⟨.outage, 0, 0⟩ else ⟨.doubt, 1, 0⟩
  | .doubt => if threshold ≤ l.misses + 1 then ⟨.outage, 0, 0⟩ else ⟨.doubt, l.misses + 1, 0⟩
  | .outage => ⟨.outage, l.misses, 0⟩

/-- A sign reaching the link monitor (R133). -/
def Link.sign (l : Link) (threshold : Nat) : Link :=
  match l.state with
  | .contact => l
  | .doubt => if threshold ≤ l.signs + 1 then ⟨.contact, 0, 0⟩ else ⟨.doubt, 0, l.signs + 1⟩
  | .outage => if threshold ≤ l.signs + 1 then ⟨.contact, 0, 0⟩ else ⟨.outage, l.misses, l.signs + 1⟩

/-- The link monitor takes a new value; a change of the link state posts LINK on the uplink port (R136). -/
def State.moveLink (s : State) (l : Link) : State :=
  if l.state = s.link.state then s.setLink l else (s.setLink l).post .up .link

/-- A miss (R132). -/
def State.linkMiss (s : State) : State := s.moveLink (s.link.miss s.cfg.missThreshold)

/-- A sign (R133). -/
def State.linkSign (s : State) : State := s.moveLink (s.link.sign s.cfg.recoverThreshold)

/-! ### The exposure meter (R118 to R121) -/

/-- The sum of the charges on directory entries. -/
def directoryCharges (d : List Entry) : Nat := (d.map Entry.charge).sum

/-- The sum of the charges on the spill list. -/
def spillCharges (l : List SpillItem) : Nat := (l.map SpillItem.charge).sum

/-- The spill list item of a record number. -/
def findSpill (n : Nat) (l : List SpillItem) : Option SpillItem := l.find? fun x => x.number == n

/-- The spill list without the item of a record number; the others keep their order (R116). -/
def removeSpill (n : Nat) : List SpillItem → List SpillItem
  | [] => []
  | x :: xs => if x.number = n then xs else x :: removeSpill n xs

/-- A charge joins the spill list: appended, or merged into the item of the same number, whose batch is replaced
(R113). -/
def addSpill (x : SpillItem) : List SpillItem → List SpillItem
  | [] => [x]
  | y :: ys => if y.number = x.number then ⟨y.number, y.charge + x.charge, x.batch⟩ :: ys else y :: addSpill x ys

/-- The meter lowered by a released charge (R120). -/
def State.release (s : State) (charge : Nat) : State := s.setMeter (s.meter - charge)

end Sys2Proof.Machine
end

