-- ==== Sys2Proof/Machine/Keys.lean ====
section
/-! DEFINITION. The key table: uses, wear and spending, roll, retiring, erase and the rewrap campaign (chapter 10). -/

namespace Sys2Proof.Machine

/-- The first slot's key that holds a role (R159). -/
def KeyTable.find (k : KeyTable) (r : Role) : Option WrapKey :=
  k.slots.toList.findSome? fun o => o.filter fun w => decide (w.role = r)

/-- The ACTIVE key. -/
def KeyTable.active (k : KeyTable) : Option WrapKey := k.find .active

/-- Changes or empties every loaded wrapping key slot. -/
def KeyTable.mapKeys (k : KeyTable) (f : WrapKey → Option WrapKey) : KeyTable :=
  { k with slots := k.slots.map fun o => o.bind f }

/-- Changes the keys that hold a role. -/
def KeyTable.updRole (k : KeyTable) (r : Role) (f : WrapKey → Option WrapKey) : KeyTable :=
  k.mapKeys fun w => if w.role = r then f w else some w

/-- Whether a key is spent: its use count is at or above the use limit (R162). -/
def KeyTable.spent (k : KeyTable) (w : WrapKey) : Bool := decide (k.useLimit ≤ w.uses)

/-- Whether an ACTIVE key with uses left exists (R62). -/
def KeyTable.usable (k : KeyTable) : Bool :=
  match k.active with
  | some w => !k.spent w
  | none => false

/-- Whether the ACTIVE key is spent (R162). -/
def KeyTable.activeSpent (k : KeyTable) : Bool :=
  match k.active with
  | some w => k.spent w
  | none => false

/-- The wear point: the use limit less a sixteenth of it (R163). -/
def wearPoint (limit : Nat) : Nat := limit - limit / 16

/-- The number of custody entries of an epoch: WRITING, HELD, OFFERED, PARKED, REWRAPPING or SPILLING (R166). -/
def custodyCount (epoch : Nat) (d : List Entry) : Nat :=
  d.countP fun e => decide (e.epoch = epoch) && !e.state.out

/-- The campaign's look: with no request pending and a RETIRING key present, a request for the oldest HELD or PARKED
entry of its epoch is posted, if there is one (R167). -/
def State.campaignLook (s : State) : State :=
  match s.keys.find .retiring, s.keys.campaign with
  | some w, none =>
    s.updKeys fun k =>
      { k with
        campaign :=
          (s.store.directory.find? fun e =>
            decide (e.epoch = w.epoch) && decide (e.state = .held ∨ e.state = .parked)).map Entry.number }
  | _, _ => s

/-- The erase of the RETIRING key: its slot EMPTY, the campaign request withdrawn, RETIRED posted unless the erase is a
warm start's (R166). -/
def State.eraseRetiring (s : State) (announce : Bool) : State :=
  let t := s.updKeys fun k => { k.updRole .retiring (fun _ => none) with retiring := 0, campaign := none }
  if announce then t.post .up .retired else t

/-- The roles after a roll: ACTIVE becomes RETIRING, NEXT becomes ACTIVE with use count 0 and no wear flag (R165). -/
def KeyTable.rollRoles (k : KeyTable) : KeyTable :=
  { k.mapKeys (fun w =>
      match w.role with
      | .active => some { w with role := .retiring }
      | .next => some { w with role := .active, uses := 0, wear := false }
      | .retiring => some w) with pendingRoll := false }

/-- A roll (R165): the roles change; a key that became RETIRING is erased at once if no custody entry carries its
epoch, and otherwise its campaign begins. -/
def State.roll (s : State) (announce : Bool) : State :=
  match s.keys.active with
  | none => s.updKeys KeyTable.rollRoles
  | some w =>
    let n := custodyCount w.epoch s.store.directory
    let t := s.updKeys fun k => { k.rollRoles with retiring := n }
    if n = 0 then t.eraseRetiring announce else t.campaignLook

/-- The retiring count set from the directory after an event that took an entry out of custody or changed its epoch;
at 0 the RETIRING key is erased and a pending roll is made (R166). DEDUCED: log entry 20. -/
def State.settleRetiring (s : State) (announce : Bool) : State :=
  match s.keys.find .retiring with
  | none => s
  | some w =>
    let n := custodyCount w.epoch s.store.directory
    let t := s.updKeys fun k => { k with retiring := n }
    if n = 0 then
      let u := t.eraseRetiring announce
      if u.keys.pendingRoll then u.roll announce else u
    else t

/-- What the key table does when the ACTIVE key becomes spent (R164). -/
def State.onSpent (s : State) : State :=
  match s.keys.find .next, s.keys.find .retiring with
  | some _, none => s.roll true
  | some _, some _ => s.updKeys fun k => { k with pendingRoll := true }
  | none, _ => s.postBoth .keySpent

/-- The ACTIVE key's use count raised by one at an accepted take (R162). -/
def KeyTable.countUse (k : KeyTable) : KeyTable :=
  k.updRole .active fun w => some { w with uses := w.uses + 1 }

/-- The wear test: KEY_WEAR once, at or above the wear point (R163). -/
def State.testWear (s : State) : State :=
  match s.keys.active with
  | some w =>
    if wearPoint s.keys.useLimit ≤ w.uses ∧ w.wear = false then
      (s.updKeys fun k => k.updRole .active fun w => some { w with wear := true }).post .up .keyWear
    else s
  | none => s

/-- The key table's action on a raised use count, after the take's own effects: wear, then spending (R163, R164). -/
def State.afterUse (s : State) : State :=
  let t := s.testWear
  if t.keys.activeSpent then t.onSpent else t

/-- A setback of the use count of the key with an epoch, whatever its role (R162); ending the ACTIVE key's spending
clears the pending-roll flag (R164). -/
def State.setBackUse (s : State) (epoch : Nat) : State :=
  let was := s.keys.activeSpent
  let t := s.updKeys fun k => k.mapKeys fun w => some (if w.epoch = epoch then { w with uses := w.uses - 1 } else w)
  if was && !t.keys.activeSpent then t.updKeys fun k => { k with pendingRoll := false } else t

/-- The check value of a key: the first 3 bytes of its encipherment of the zero block (R58). -/
def checkValueOf (k : Key) : CheckValue := (Config.blockCipher.encipher k 0).extractLsb' 104 24

/-- A key into the lowest-numbered EMPTY slot (R159). -/
def loadLowest (w : WrapKey) (slots : Vector (Option WrapKey) 3) : Vector (Option WrapKey) 3 :=
  if slots[0].isNone then slots.set 0 (some w)
  else if slots[1].isNone then slots.set 1 (some w)
  else if slots[2].isNone then slots.set 2 (some w)
  else slots

end Sys2Proof.Machine
end

