-- ==== Sys2Proof/Machine/Arbiter.lean ====
section
/-! DEFINITION. The pending set, eligibility and the arbiter (R60 to R66). The pending set has no storage of its own:
a WRAP request is pending in its QUEUED lane, an ADVISE request in its FALLBACK lane until it is taken, OPEN requests
are the queued response records, the REWRAP request is the campaign request, the CLOSE request is close-pending. -/

namespace Sys2Proof.Machine

/-- The lane with a given number, taken modulo 16. -/
def laneOf (n : Nat) : Fin 16 := ⟨n % 16, Nat.mod_lt _ (by decide)⟩

/-- The lane's pending wrap request (R60). -/
def Lane.pendingWrap (l : Lane) : Option WrapRequest :=
  match l.mode with
  | .queued r => some r
  | _ => none

/-- The lane's pending advice request: posted and not yet taken (R60). -/
def Lane.pendingAdvice (l : Lane) : Option AdviceRequest :=
  match l.mode with
  | .fallback a => if a.taken then none else some a
  | _ => none

/-- Whether the lane has a class A WRAP pending: frozen mode ONLINE (R63). -/
def Lane.pendingA (l : Lane) : Bool :=
  match l.pendingWrap with
  | some r => decide (r.mode = .online)
  | none => false

/-- Whether the lane has an OFFLINE WRAP pending, which is class B (R63). -/
def Lane.pendingOfflineWrap (l : Lane) : Bool :=
  match l.pendingWrap with
  | some r => decide (r.mode = .offline)
  | none => false

/-- Whether the CLOSE request is pending and eligible (R62). -/
def State.closeEligible (s : State) : Bool :=
  s.batch.closePending && decide (7 ≤ s.store.freeSlots) && decide (1 ≤ s.store.freeEntries) && s.keys.usable

/-- Whether the REWRAP request is pending and eligible (R62). -/
def State.rewrapEligible (s : State) : Bool := s.keys.campaign.isSome && s.keys.usable

/-- Whether a position of the B rotation, lanes 0 to 15 and the shop at 16, holds an eligible class B request (R64). -/
def State.pendingB (s : State) (pos : Nat) : Bool :=
  if pos = 16 then s.closeEligible
  else
    let l := s.lanes[laneOf pos]
    l.pendingOfflineWrap || l.pendingAdvice.isSome

/-- The first of `n` positions, counted around from a pointer, that meets a test (R64). -/
def firstFrom (n ptr : Nat) (test : Nat → Bool) : Option Nat :=
  ((List.range n).map fun k => (ptr + k) % n).find? test

/-- What the arbiter chooses (R63). -/
inductive Choice where
  | opening
  | wrapA (lane : Fin 16)
  | rewrap
  | wrapB (lane : Fin 16)
  | advise (lane : Fin 16)
  | close
deriving DecidableEq, Repr

/-- The lane of the next class A take (R64). -/
def State.choiceA (s : State) : Option Nat :=
  firstFrom 16 s.engine.aPtr fun n => s.lanes[laneOf n].pendingA

/-- The position of the next class B take (R64). -/
def State.choiceB (s : State) : Option Nat := firstFrom 17 s.engine.bPtr s.pendingB

/-- The class B choice at a position (R63, R64). -/
def State.choiceAtB (s : State) (pos : Nat) : Choice :=
  if pos = 16 then .close
  else if s.lanes[laneOf pos].pendingOfflineWrap then .wrapB (laneOf pos)
  else .advise (laneOf pos)

/-- The arbiter: the first case of R63 that applies. -/
def State.choose (s : State) : Option Choice :=
  if !s.intake.queue.isEmpty then some .opening
  else
    match s.choiceA with
    | some n => some (.wrapA (laneOf n))
    | none =>
      if s.rewrapEligible && (decide (s.engine.share = s.cfg.rewrapShare) || s.choiceB.isNone) then some .rewrap
      else s.choiceB.map s.choiceAtB

/-- The take that the engine makes now: only while IDLE (R61). -/
def State.due (s : State) : Option Choice :=
  if s.engine.job.isSome then none else s.choose

/-- The A rotation pointer after a class A take of a lane (R64). -/
def Engine.afterA (e : Engine) (lane : Fin 16) : Engine := { e with aPtr := (lane.val + 1) % 16 }

/-- The B rotation pointer and the share counter after a class B take (R64, R65). -/
def Engine.afterB (e : Engine) (pos : Nat) (rewrapPending : Bool) (share : Nat) : Engine :=
  { e with
    bPtr := (pos + 1) % 17
    share := if rewrapPending then min share (e.share + 1) else e.share }

/-- The pointers and the counter moved by a class B take, accepted or refused (R64, R65). -/
def State.afterB (s : State) (pos : Nat) : State :=
  s.updEngine fun e => e.afterB pos s.keys.campaign.isSome s.cfg.rewrapShare

/-- The refusal at a take's key check, if any (R67). -/
def KeyTable.keyRefusal (k : KeyTable) : Option RefuseReason :=
  match k.active with
  | none => some .noKey
  | some w => if k.spent w then some .keySpent else none

/-- The take checks of a lane job in order: key, room, exposure. The reason to refuse, or the charge to accept (R66,
R67, R69). -/
def State.takeChecks (s : State) (slots entries : Nat) (decision : Bool) (cardClass : Fin 8) (amount : Nat) :
    Except RefuseReason Nat :=
  match s.keys.keyRefusal with
  | some r => .error r
  | none =>
    if s.store.freeSlots < slots ∨ s.store.freeEntries < entries then .error .storeFull
    else if decision then exposureDecision s.cfg.risk[cardClass] s.cfg.ceiling s.meter amount
    else .ok 0

/-- The checks at a WRAP take (R66, R67). -/
def State.wrapChecks (s : State) (r : WrapRequest) : Except RefuseReason Nat :=
  s.takeChecks (r.slots + Config.reserveSlots) Config.wrapEntries r.needsDecision r.cardClass r.amount

/-- The checks at an ADVISE take (R66, R69). -/
def State.adviseChecks (s : State) (a : AdviceRequest) : Except RefuseReason Nat :=
  s.takeChecks 2 1 true a.cardClass a.amount

/-- A refusal for room posts STORE_FULL on the uplink port (R66). -/
def State.noteStoreFull (s : State) (r : RefuseReason) : State :=
  if r = .storeFull then s.post .up .storeFull else s

end Sys2Proof.Machine
end

