-- ==== Sys2Proof/Machine/Reads.lean ====
section
/-! DEFINITION. What the owning blocks answer to reads: lanes, ring, offers, spills, and the control items. -/

namespace Sys2Proof.Machine

/-! ### Codes of the enumerations (12.2, R191) -/

/-- The lane state's code, in the order of Table 1-2 (12.2). -/
def LaneMode.code : LaneMode → Nat
  | .idle => 0
  | .assembling => 1
  | .queued _ => 2
  | .wrapping => 3
  | .waitResponse _ _ => 4
  | .answered _ => 5
  | .fallback _ => 6

/-- The result code, in the order of Table 1-3 (12.2). -/
def LaneResult.code : LaneResult → Nat
  | .none => 0
  | .lost => 1
  | .reset => 2
  | .abandoned => 3
  | .busy => 4
  | .empty => 5
  | .incomplete => 6
  | .badFormat => 7
  | .badAmount => 8
  | .badField => 9
  | .missingField => 10
  | .noContact => 11
  | .storeFull => 12
  | .keySpent => 13
  | .noKey => 14
  | .offlineRefused _ => 15
  | .wrapped _ => 16
  | .offlineAccepted _ => 17
  | .noAnswer _ => 18

/-- The record number of a result, or 0 (12.2). -/
def LaneResult.number : LaneResult → Nat
  | .wrapped n => n
  | .offlineAccepted n => n
  | .noAnswer n => n
  | _ => 0

/-- The code of an OFFLINE_REFUSED reason (12.2). -/
def RefuseReason.code : RefuseReason → Nat
  | .floor => 1
  | .ceiling => 2
  | .storeFull => 3
  | .keySpent => 4
  | .noKey => 5

/-- The reason code of a result, 0 for none (12.2). -/
def LaneResult.reason : LaneResult → Nat
  | .offlineRefused r => r.code
  | _ => 0

/-- The code of an acquirer result (12.2). -/
def AcquirerResult.code : AcquirerResult → Nat
  | .approved => 1
  | .declined => 2
  | .refer => 3

/-- The code of a refusal reason in the write-status item (12.4). -/
def Reason.code : Reason → Nat
  | .denied => 0x03
  | .badWindow => 0x04
  | .heldOut => 0x05
  | .laneBusy => 0x10
  | .overrun => 0x11
  | .badCommand => 0x12
  | .badFormat => 0x13
  | .suspended => 0x14
  | .notHeld => 0x15
  | .notOffered => 0x16
  | .notParked => 0x17
  | .notSpilling => 0x18
  | .gone => 0x19
  | .busy => 0x1A
  | .noKey => 0x1B

/-- The code of a read status (R190). -/
def ReadStatus.code : ReadStatus → Nat
  | .ok => 0
  | .empty => 1
  | .busy => 2
  | .denied => 3
  | .badWindow => 4
  | .heldOut => 5
  | .aborted => 6

/-- The status word of an answer: status code and the header's tag (R190). -/
def Answer.statusWord (a : Answer) : Word := wordOf (BitVec.ofNat 8 a.status.code) a.tag

/-- The link state's code (R191). -/
def LinkState.code : LinkState → Nat
  | .contact => 0
  | .doubt => 1
  | .outage => 2

/-- The code of an intake outcome, NONE being 0 (R148, R191). -/
def OpenOutcome.code : OpenOutcome → Nat
  | .noKey => 1
  | .staleKey => 2
  | .forged => 3
  | .valid => 4
  | .late => 5

/-- The code of a slot's role, EMPTY being 0 (R168, R191). -/
def roleCode : Option WrapKey → Nat
  | none => 0
  | some w => match w.role with
    | .next => 1
    | .active => 2
    | .retiring => 3

/-- The code of a shop class (12.5). -/
def ShopClass.code : ShopClass → Nat
  | .unset => 0
  | .clear => 1
  | .truncate => 2
  | .wrap => 3
  | .drop => 4

/-- A policy entry in its one byte (12.5). -/
def PolicyEntry.byte (e : PolicyEntry) : Byte := BitVec.ofNat 8 (e.shopClass.code + 128 * e.required.toNat)

/-! ### Lane reads (R20, R21) -/

/-- The bytes of a LANE_CMD read (12.2). -/
def laneCmdBytes (l : Lane) : List Byte :=
  beBytes 1 l.mode.code ++ beBytes 1 l.result.code ++ beBytes 4 l.result.number ++ beBytes 1 l.result.reason ++ [0]

/-- The bytes of a LANE_RSP read (12.2). -/
def responseBytes (r : Response) : List Byte :=
  beBytes 4 r.number ++ beBytes 1 r.result.code ++ padTo 6 r.approval ++ padTo 6 r.reference ++ [0]

/-- A LANE_CMD read: state and last result, and the attention bit is cleared (R20). -/
def State.readLaneCmd (s : State) (lane : Fin 16) (hdr : Header) : State :=
  (s.updLane lane fun l => { l with attention := false }).answerWith .lp .ok hdr
    (wordsOf (laneCmdBytes s.lanes[lane]))

/-- A LANE_RSP read: an ANSWERED lane hands its response out once and becomes IDLE, any other answers EMPTY (R21). -/
def State.readLaneRsp (s : State) (lane : Fin 16) (hdr : Header) : State :=
  match s.lanes[lane].mode with
  | .answered r =>
    (s.updLane lane fun l => { l with mode := .idle, attention := false }).answerWith .lp .ok hdr
      (wordsOf (responseBytes r))
  | _ => s.answerWith .lp .empty hdr []

/-! ### Ring reads (R94) -/

/-- Whether a port may read the slots of an entry in this state (R94). -/
def EntryState.readable (p : PortId) : EntryState → Bool
  | .offered _ => decide (p = .up)
  | .spilling => decide (p = .lp)
  | _ => false

/-- Whether a port may read a slot: it belongs to an OFFERED entry (uplink) or to the SPILLING entry (lane) (R94). -/
def slotReadable (p : PortId) (d : List Entry) (slot : Nat) : Bool :=
  d.any fun e => e.state.readable p && e.owns slot

/-- The ring words that a RING read touches, its burst cut to the limit (R94, R183). DESIGN CHOICE: log entry 16. -/
def ringWords (index : Word) (hdr : Header) (count : Nat) : List Nat :=
  (List.range (min count Config.burstLimit)).map fun k =>
    ringWord hdr.form (index.toNat * 16 + hdr.offset.toNat) k

/-- Whether a RING read is permitted (R94). -/
def ringPermitted (p : PortId) (d : List Entry) (index : Word) (hdr : Header) (count : Nat) : Bool :=
  decide (index.toNat ≤ 4095) && decide (hdr.offset.toNat ≤ 15) &&
    (ringWords index hdr count).all fun w => slotReadable p d (w / 16)

/-- A RING read at the store (R94), with the burst limit's flag where it runs past 64 words (R183). -/
def State.readRing (s : State) (p : PortId) (index : Word) (hdr : Header) (count : Nat) : State :=
  let t :=
    if ringPermitted p s.store.directory index hdr count then
      s.answerWith p .ok hdr ((ringWords index hdr count).map (ringDataWord s.store.ring))
    else s.denyRead p ringWindow index hdr
  t.noteBurst p count

/-! ### Offers (R90 to R93) -/

/-- Whether an entry may be an offer candidate: HELD, or REWRAPPING from HELD (R91). -/
def Entry.offerable (e : Entry) : Bool := decide (e.state = .held ∨ e.state = .rewrapping .held)

/-- The offer candidate: the oldest awaiting one, else the oldest of the rest (R91). -/
def offerCandidate (d : List Entry) : Option Entry :=
  match d.find? fun e => e.offerable && e.awaiting with
  | some e => some e
  | none => d.find? Entry.offerable

/-- The 16 bytes of a descriptor (R93, 12.3). -/
def descriptorBytes (e : Entry) : List Byte :=
  beBytes 4 e.number ++ beBytes 2 e.firstSlot ++ beBytes 1 e.slots ++ beBytes 1 e.kind.code ++ beBytes 2 e.length ++
    beBytes 1 (modeFlags e.offline e.fallback + 4 * e.awaiting.toNat) ++ List.replicate 5 0

/-- A read held at the store on a REWRAPPING candidate, under the limit of its header (R92, R110, R182). -/
def State.holdAtStore (s : State) (p : PortId) (r : ReadRequest) (limit : Nat) : State :=
  (s.endAnswer p).updPort p fun q => { q with held := some ⟨.read r, limit, true⟩ }

/-- The reason word of an EMPTY answer: NONE (R190). -/
def reasonNone : Word := 0x0000
/-- The reason word of an EMPTY answer: WINDOW_FULL (R190). -/
def reasonWindowFull : Word := 0x0001
/-- The reason word of an EMPTY answer: LIST_FULL (R190). -/
def reasonListFull : Word := 0x0002

/-- An OFFER read at the store: the first case of R90 that applies. -/
def State.readOffer (s : State) (r : ReadRequest) (limit : Nat) : State :=
  if Config.offerWindow ≤ offeredCount s.store.directory then s.answerWith .up .empty r.hdr [reasonWindowFull]
  else
    match offerCandidate s.store.directory with
    | none => s.answerWith .up .empty r.hdr [reasonNone]
    | some e =>
      if e.state = .held then
        (s.updStore fun st => st.updEntry e.number fun x => { x with state := .offered s.cfg.offerTimeout }).answerWith
          .up .ok r.hdr (wordsOf (descriptorBytes e))
      else s.holdAtStore .up r limit

/-! ### Spill reads (R108 to R111) -/

/-- Whether spill is permitted: use is above a low mark (R108). -/
def spillPermitted (st : Store) (cfg : Settings) : Bool :=
  decide (cfg.lowSlot < st.slotsUsed) || decide (cfg.lowEntry < st.entriesUsed)

/-- Whether an entry is REWRAPPING. -/
def EntryState.isRewrapping : EntryState → Bool
  | .rewrapping _ => true
  | _ => false

/-- Whether an entry may be the spill candidate: HELD, PARKED or REWRAPPING (R109). -/
def Entry.spillable (e : Entry) : Bool := decide (e.state = .held ∨ e.state = .parked) || e.state.isRewrapping

/-- The spill candidate: the oldest such entry (R109). -/
def spillCandidate (d : List Entry) : Option Entry := d.find? Entry.spillable

/-- A SPILL read at the store: the first case of R108 that applies. -/
def State.readSpill (s : State) (r : ReadRequest) (limit : Nat) : State :=
  if !spillPermitted s.store s.cfg then s.denyRead .lp spillWindow r.index r.hdr
  else if s.store.directory.any fun e => decide (e.state = .spilling) then s.answerWith .lp .busy r.hdr []
  else
    match spillCandidate s.store.directory with
    | none => s.answerWith .lp .empty r.hdr [reasonNone]
    | some e =>
      if e.state.isRewrapping then s.holdAtStore .lp r limit
      else if 0 < e.charge ∧ Config.spillListMax ≤ s.spill.list.length then
        s.answerWith .lp .empty r.hdr [reasonListFull]
      else
        ((s.updStore fun st => st.updEntry e.number fun x => { x with state := .spilling }).updSpill
          fun sp => { sp with reservation := some ⟨e.number, true⟩ }).answerWith .lp .ok r.hdr
          (wordsOf (descriptorBytes e))

/-! ### Control items (R180, R191) -/

/-- The identity item (R187). -/
def State.identityBytes (s : State) : List Byte :=
  beBytes 2 Config.partCode ++ beBytes 4 s.keys.identity ++ beBytes 1 16 ++ beBytes 2 Config.ringSlots ++
    beBytes 2 Config.directoryMax ++ beBytes 2 Config.spillListMax ++ beBytes 1 Config.offerWindow

/-- The lane attention map, bit n for lane n (R20, 12.4). -/
def State.attentionMap (s : State) : Nat :=
  (s.lanes.toList.zipIdx.map fun lk => lk.1.attention.toNat * 2 ^ lk.2).sum

/-- The per-lane states from a first lane on, one byte each (R20, R191). -/
def State.laneStateBytes (s : State) (first : Nat) : List Byte :=
  (s.lanes.toList.drop first).flatMap fun l => beBytes 1 l.mode.code

/-- The store status item (R87). -/
def State.storeStatusBytes (s : State) : List Byte :=
  let d := s.store.directory
  beBytes 2 s.store.slotsUsed ++ beBytes 2 s.store.entriesUsed ++ beBytes 1 (offeredCount d) ++
    beBytes 2 (d.countP Entry.countsParked) ++ beBytes 4 ((d.head?.map Entry.number).getD 0) ++
    beBytes 4 (((d.find? Entry.countsParked).map Entry.number).getD 0) ++ beBytes 4 s.store.counter ++
    beBytes 1 (!s.store.armed).toNat

/-- The condition of the spill reservation: absent 0, LIVE 1, GONE 2 (R116, R191). -/
def reservationCode : Option Reservation → Nat
  | none => 0
  | some r => if r.live then 1 else 2

/-- The spill status item (R116): list count, then the reservation's condition and record number, in the order of R116's
sentence, which has no Content table. DESIGN CHOICE: log entry 33. -/
def State.spillStatusBytes (s : State) : List Byte :=
  beBytes 2 s.spill.list.length ++ beBytes 1 (reservationCode s.spill.reservation) ++
    beBytes 4 ((s.spill.reservation.map Reservation.number).getD 0)

/-- The exposure status item (R129). -/
def State.exposureStatusBytes (s : State) : List Byte :=
  beBytes 4 s.meter ++ beBytes 4 s.cfg.ceiling ++ beBytes 1 s.link.state.code ++ beBytes 1 s.link.misses ++
    beBytes 1 s.link.signs

/-- The intake status item (R148). -/
def State.intakeStatusBytes (s : State) : List Byte :=
  beBytes 1 s.intake.queue.length ++ beBytes 1 s.intake.claimed ++ beBytes 1 s.intake.suspended.toNat ++
    beBytes 1 s.intake.forged ++ beBytes 1 s.intake.late ++ beBytes 1 s.cfg.forgedLimit ++
    beBytes 1 ((s.intake.last.map fun o => o.1.code).getD 0) ++ beBytes 4 ((s.intake.last.map Prod.snd).getD 0)

/-- The batch status item (R157). -/
def State.batchStatusBytes (s : State) : List Byte :=
  beBytes 2 s.batch.number ++ beBytes 4 s.batch.first ++ beBytes 3 s.batch.recordCount ++
    [saturationByte s.batch.classes] ++ beBytes 1 s.batch.summaryLost.toNat ++ beBytes 1 s.batch.closePending.toNat ++
    beBytes 3 s.batch.shopSeq

/-- One wrapping key slot in the key summary: role, epoch, use count (R168). -/
def slotSummaryBytes (o : Option WrapKey) : List Byte :=
  beBytes 1 (roleCode o) ++ beBytes 2 ((o.map WrapKey.epoch).getD 0) ++ beBytes 3 ((o.map WrapKey.uses).getD 0)

/-- The key summary item (R168). -/
def State.keySummaryBytes (s : State) : List Byte :=
  let k := s.keys
  k.slots.toList.flatMap slotSummaryBytes ++ beBytes 1 k.response.isSome.toNat ++
    beBytes 2 ((k.response.map ResponseKey.epoch).getD 0) ++ beBytes 1 k.transport.isSome.toNat ++
    beBytes 2 k.highest ++ beBytes 3 k.useLimit ++ beBytes 1 k.pendingRoll.toNat ++ beBytes 2 k.retiring ++
    beBytes 4 (k.campaign.getD 0)

/-- The 15 policy entries in their bytes (R34, 12.5). -/
def policyBytes (p : Vector PolicyEntry 15) : List Byte := p.toList.map PolicyEntry.byte

/-- The target of a refusal in the form of header byte 0 bits 6 to 0 (12.4). -/
def RecordedRefusal.codeByte (r : RecordedRefusal) : Nat :=
  64 * r.target.control.toNat + 32 * (decide (r.form = .circular)).toNat + r.target.code.toNat

/-- The write-status item of a port (12.4). -/
def Port.writeStatusBytes (q : Port) : List Byte :=
  (match q.lastRefusal with
    | some r => beBytes 1 r.codeByte ++ beBytes 1 r.reason.code ++ bytesOfWord r.index ++ [r.tag]
    | none => List.replicate 5 0) ++
    beBytes 1 q.refusalCount ++ beBytes 1 (q.truncated.toNat + 2 * q.lastRefusal.isSome.toNat) ++ [0]

/-- The port that an index names (R180). -/
def portOf (index : Nat) : PortId := if index = 0 then .lp else .up

/-- The contents of a control item as bytes (R191): the item's code and index, in range as the decoder leaves them. -/
def State.itemBytes (s : State) (code index : Nat) : List Byte :=
  match code with
  | 0x01 => s.identityBytes
  | 0x02 => beBytes 2 s.attentionMap
  | 0x03 => s.laneStateBytes index
  | 0x04 => s.storeStatusBytes
  | 0x05 => s.spillStatusBytes
  | 0x06 => s.exposureStatusBytes
  | 0x07 => s.intakeStatusBytes
  | 0x08 => s.batchStatusBytes
  | 0x09 => s.keySummaryBytes
  | 0x0A => policyBytes s.policy
  | 0x0B => beBytes 2 s.cfg.onlineTimeout
  | 0x0C => beBytes 2 s.cfg.highSlot ++ beBytes 2 s.cfg.lowSlot ++ beBytes 2 s.cfg.highEntry ++ beBytes 2 s.cfg.lowEntry
  | 0x0D => beBytes 2 s.cfg.offerTimeout
  | 0x0E => beBytes 2 s.cfg.attemptLimit
  | 0x0F => beBytes 4 s.cfg.ceiling
  | 0x10 =>
    let r := s.cfg.risk[index]?.getD ⟨0, 0⟩
    beBytes 4 r.floor ++ beBytes 1 r.weight
  | 0x11 => beBytes 2 s.cfg.missThreshold
  | 0x12 => beBytes 2 s.cfg.recoverThreshold
  | 0x13 => beBytes 2 s.cfg.forgedLimit
  | 0x14 => beBytes 4 s.keys.useLimit
  | 0x15 => beBytes 2 s.cfg.rewrapShare
  | 0x16 => beBytes 2 s.cfg.holdLimit
  | 0x17 => beBytes 4 (s.port (portOf index)).events.toNat
  | 0x18 => beBytes 4 (s.port (portOf index)).mask.toNat
  | 0x19 => (s.port (portOf index)).writeStatusBytes
  | _ => []

/-- A read of a control item at the block that owns it (R180, R191): the item as it stands, and nothing changed but the
port; with the burst limit's flag where it runs past 64 words (R183). -/
def State.readControl (s : State) (p : PortId) (code : BitVec 5) (index : Word) (hdr : Header) (count : Nat) : State :=
  (s.answerWith p .ok hdr (wordsOf (s.itemBytes code.toNat index.toNat))).noteBurst p count

/-! ### A read at its block -/

/-- The window or control item of a read. -/
def ReadKind.target : ReadKind → Target
  | .laneCmd _ => laneCmdWindow
  | .laneRsp _ => laneRspWindow
  | .ring _ => ringWindow
  | .offer => offerWindow
  | .spill => spillWindow
  | .control code _ => ⟨true, code⟩

/-- A read that reaches its owning block, which answers or holds it (R181). -/
def State.answerRead (s : State) (p : PortId) (r : ReadRequest) (limit : Nat) : State :=
  match r.kind with
  | .laneCmd lane => s.readLaneCmd lane r.hdr
  | .laneRsp lane => s.readLaneRsp lane r.hdr
  | .ring count => s.readRing p r.index r.hdr count
  | .offer => s.readOffer r limit
  | .spill => s.readSpill r limit
  | .control code count => s.readControl p code r.index r.hdr count

end Sys2Proof.Machine
end

