-- ==== Sys2Proof/Machine/Transactions.lean ====
section
/-! DEFINITION. The frame ports' transactions: posted writes, holds, the hold limit and the end of a transaction
(R181, R182, R188). -/

namespace Sys2Proof.Machine

/-- Changes a port's posted-write queue. -/
def State.setPosted (s : State) (p : PortId) (ws : List PostedWrite) : State :=
  s.updPort p fun q => { q with posted := ws }

/-- Changes a port's held transaction, which is then the one transaction that the port carries (11.1). -/
def State.setHeld (s : State) (p : PortId) (h : Option Held) : State :=
  (s.endAnswer p).updPort p fun q => { q with held := h }

/-- A write takes its place at the end of the posted-write queue and its data words fill the place, cut to the burst
limit (R181, R183). -/
def State.takePlace (s : State) (p : PortId) (w : PostedWrite) : State :=
  ((s.endAnswer p).setPosted p ((s.port p).posted ++ [w.shortened])).noteBurst p w.words.length

/-- The number of FREE intake places (8.1). -/
def Intake.free (i : Intake) : Nat := Config.intakePlaces - (i.queue.length + i.claimed)

/-- Whether an INTAKE write can be admitted: a queue place and a FREE intake place (R181). -/
def State.intakeAdmissible (s : State) : Bool :=
  decide (s.up.posted.length < Config.postedPlaces) && decide (0 < s.intake.free)

/-- An INTAKE write is admitted: it takes its queue place, which its data words fill, and claims an intake place (R139,
R181). -/
def State.admitIntake (s : State) (w : PostedWrite) : State :=
  (s.takePlace .up w).updIntake fun i => { i with claimed := i.claimed + 1 }

/-- A held transaction whose cause has cleared goes on: a write takes its place, an INTAKE write is admitted, a read
that waited for posted writes reaches its block (R181, R182). A read held at the store waits for the rewrap (R92). -/
def State.resumePort (s : State) (p : PortId) : State :=
  match (s.port p).held with
  | none => s
  | some h =>
    match h.kind with
    | .write w =>
      if (s.port p).posted.length < Config.postedPlaces then (s.setHeld p none).takePlace p w else s
    | .intake w => if s.intakeAdmissible then (s.setHeld p none).admitIntake w else s
    | .read r =>
      if !h.atStore && (s.port p).posted.isEmpty then (s.setHeld p none).answerRead p r h.limit else s

/-- A read held at the store is evaluated afresh at a REWRAP completion (R92, R110). -/
def State.reevaluate (s : State) (p : PortId) : State :=
  match (s.port p).held with
  | some ⟨.read r, limit, true⟩ => (s.setHeld p none).answerRead p r limit
  | _ => s

/-- The header of a posted write arrives: it takes a place, or is held while all four are taken (R181, R182). A port
carries one transaction at a time, so nothing arrives while one is held (11.1). -/
def State.postWrite (s : State) (p : PortId) (w : PostedWrite) : State :=
  if (s.port p).held.isSome then s
  else if (s.port p).posted.length < Config.postedPlaces then s.takePlace p w
  else s.setHeld p (some ⟨.write w, s.cfg.holdLimit, false⟩)

/-- A write at one of its two moments (R181). Applied, it leaves the front of the queue and frees its place, which may
let a held transaction go on; with an empty queue and no hold it is admitted and applied in one. A write that is not at
the front of a queue that holds others is not applied. -/
def State.portWrite (s : State) (p : PortId) (stage : Stage) (w : PostedWrite) (effect : State → State) : State :=
  whenRunning s fun s =>
    match stage with
    | .post => s.postWrite p w
    | .apply =>
      match (s.port p).posted with
      | [] => if (s.port p).held.isSome then s else effect ((s.endAnswer p).noteBurst p w.words.length)
      | q :: rest => if q = w.shortened then (effect (s.setPosted p rest)).resumePort p else s

/-- The header of a read arrives: it is held while the port's posted-write queue is not empty, and otherwise reaches
its block (R181, R182). -/
def State.portRead (s : State) (p : PortId) (r : ReadRequest) : State :=
  whenRunning s fun s =>
    if (s.port p).held.isSome then s
    else if (s.port p).posted.isEmpty then s.answerRead p r s.cfg.holdLimit
    else s.setHeld p (some ⟨.read r, s.cfg.holdLimit, false⟩)

/-- The expiry of a hold (R182): the read is answered HELD_OUT, the write is released and its data words discarded, and
the refusal is recorded. The burst limit counts a write's words, and the `count` words that are read (R183). -/
def State.expireHold (s : State) (p : PortId) (count : Nat) : State :=
  match (s.port p).held with
  | none => s
  | some h =>
    let t := s.setHeld p none
    match h.kind with
    | .write w => (t.recordRefusal p w.target w.index w.hdr .heldOut).noteBurst p w.words.length
    | .intake w => (t.recordRefusal p w.target w.index w.hdr .heldOut).noteBurst p w.words.length
    | .read r =>
      ((t.recordRefusal p r.kind.target r.index r.hdr .heldOut).answerWith p .heldOut r.hdr []).noteBurst p count

/-- An answer of which `sent` data words have crossed, cut off there: the words still to come read as zero (R188). -/
def Answer.cut (a : Answer) (sent : Nat) : Answer := { a with words := a.words.take sent }

/-- A warm reset, a tamper or a loss of main power ends a port's transaction (R188): a held read is answered ABORTED, an
answer that is being sent ends after the `sent` data words that have crossed, a held write and every posted write are
discarded; nothing is recorded. -/
def Port.endTransactions (q : Port) (sent : Nat) : Port :=
  { q with
    posted := []
    held := none
    sending := false
    answer :=
      match q.held with
      | some ⟨.read r, _, _⟩ => some ⟨.aborted, r.hdr.tag, []⟩
      | _ => if q.sending then q.answer.map fun a => a.cut sent else q.answer }

/-- The end of one port's transactions, with a free number of words sent (R188). DESIGN CHOICE: log entry 4. -/
def State.endPort (s : State) (p : PortId) : State :=
  (s.updPort p fun q => q.endTransactions (Config.wordsSent s.choices)).nextChoice

/-- The end of the transactions of both ports (R188). -/
def State.endTransactions (s : State) : State := (s.endPort .lp).endPort .up

end Sys2Proof.Machine
end

