-- ==== Sys2Proof/Machine/Completions.lean ====
section
/-! DEFINITION. Completions of the engine's jobs (4.6) and the openings' outcomes (chapter 8). -/

namespace Sys2Proof.Machine

/-- The engine IDLE again: no job in service and no working copy (R59). -/
def State.endJob (s : State) : State := s.updEngine fun e => { e with job := none }

/-- The entry of a completed record (R73, R74): HELD, stamped with its batch, W and awaiting flag set. -/
def Entry.complete (e : Entry) (batch length : Nat) (awaiting : Bool) : Entry :=
  { e with state := .held, batch := batch, length := length, awaiting := awaiting }

/-- The store commits a completed record: the entry becomes HELD and the bytes are written into its slots, in the same
event (R73, R74, R103). -/
def Store.commit (st : Store) (n : Nat) (bytes : List Byte) (batch length : Nat) (awaiting : Bool) : Store :=
  match findEntry n st.directory with
  | some e =>
    { st.updEntry n fun x => x.complete batch length awaiting with
      ring := Memory.writeRun st.ring (Config.slotBytes * e.firstSlot) bytes }
  | none => st

/-! ### WRAP (R73, R13, R15) -/

/-- What the completion of a WRAP does to its lane, in the lane's own generation (R13). -/
def Lane.wrapCompleted (l : Lane) (j : WrapJob) (timeout : Nat) : Lane :=
  match j.request.mode with
  | .online =>
    { l with
      mode := .waitResponse ⟨j.number, j.laneSeq, j.request.fallback, j.request.amount, j.request.cardClass⟩ timeout
      result := .wrapped j.number }
  | .offline => { l with mode := .idle, result := .offlineAccepted j.number }

/-- The completion of a WRAP (R73). -/
def completeWrap (j : WrapJob) (s : State) : State :=
  let own := s.lanes[j.lane].owns j.request.generation
  let online := decide (j.request.mode = .online)
  let t := s.updStore fun st =>
    st.commit j.number (j.sealed s.keys.identity s.batch.number) s.batch.number j.recordLength (own && online)
  let t := t.updBatch fun b => b.addRecord j.request.kind j.request.cardClass j.request.amount
  let t := if own then t.laneOutcome j.lane fun l => l.wrapCompleted j s.cfg.onlineTimeout else t.clearOrphan j.lane
  let t := t.post .up .offerReady
  let t := if online then t.post .up .urgentReady else t
  t.endJob.campaignLook

/-- WRAP_COMPLETION (R73, R13, R15). -/
def execWrapCompletion (s : State) : Host.Outcome State Fault Refusal :=
  .next (whenRunning s fun s =>
    match s.engine.job with
    | some (.wrap j) => completeWrap j s
    | _ => s)

/-! ### ADVISE (R73, R18) -/

/-- What the completion of an ADVISE does to its lane, in the lane's own generation (R18). -/
def Lane.adviceCompleted (l : Lane) (n : Nat) : Lane := { l with mode := .idle, result := .offlineAccepted n }

/-- The completion of an ADVISE (R73, R18). -/
def completeAdvise (j : AdviseJob) (s : State) : State :=
  let t := s.updStore fun st =>
    st.commit j.number (j.sealed s.keys.identity s.batch.number) s.batch.number 64 false
  let t :=
    if s.lanes[j.lane].owns j.generation then t.laneOutcome j.lane fun l => l.adviceCompleted j.number
    else t.clearOrphan j.lane
  (t.post .up .offerReady).endJob.campaignLook

/-- ADVISE_COMPLETION (R73, R18). -/
def execAdviseCompletion (s : State) : Host.Outcome State Fault Refusal :=
  .next (whenRunning s fun s =>
    match s.engine.job with
    | some (.advise j) => completeAdvise j s
    | _ => s)

/-! ### CLOSE (R74, R155) -/

/-- The completion of a CLOSE (R74). -/
def completeClose (j : CloseJob) (s : State) : State :=
  let t := s.updStore fun st => st.commit j.number (j.sealed s.keys.identity) j.snapshot.number 208 false
  ((t.post .up .offerReady).post .up .batchClosed).endJob.campaignLook

/-- CLOSE_COMPLETION (R74, R155). -/
def execCloseCompletion (s : State) : Host.Outcome State Fault Refusal :=
  .next (whenRunning s fun s =>
    match s.engine.job with
    | some (.close j) => completeClose j s
    | _ => s)

/-! ### REWRAP (R75) -/

/-- The store's part of a REWRAP completion: a target still REWRAPPING is rewritten and returns to its prior state under
the new epoch; otherwise nothing is written (R75). -/
def Store.rewrapped (st : Store) (j : RewrapJob) : Store :=
  match findEntry j.target st.directory with
  | some e =>
    match e.state with
    | .rewrapping prior =>
      { st.updEntry j.target fun x => { x with state := prior.state, epoch := j.epoch } with
        ring := Memory.writeRun st.ring (Config.slotBytes * e.firstSlot) (j.sealed e) }
    | _ => st
  | none => st

/-- What follows the entry's change in a REWRAP completion: the key table's re-evaluation, and the answers of a held
offer read and of a held spill read (R75, R92, R110). -/
inductive Follow where
  | keyTable
  | offerRead
  | spillRead
deriving DecidableEq, Repr

/-- One of the six orders of the three actions; the manual leaves the order open (R92, 10.10). -/
def followOrder (n : Fin 6) : List Follow :=
  match n with
  | 0 => [.keyTable, .offerRead, .spillRead]
  | 1 => [.keyTable, .spillRead, .offerRead]
  | 2 => [.offerRead, .keyTable, .spillRead]
  | 3 => [.spillRead, .keyTable, .offerRead]
  | 4 => [.offerRead, .spillRead, .keyTable]
  | 5 => [.spillRead, .offerRead, .keyTable]

/-- One of the following actions. -/
def State.follow (s : State) : Follow → State
  | .keyTable => s.settleRetiring true
  | .offerRead => s.reevaluate .up
  | .spillRead => s.reevaluate .lp

/-- The completion of a REWRAP (R75): the following actions stand in a free order. -/
def completeRewrap (j : RewrapJob) (s : State) : State :=
  let t := (s.updStore fun st => st.rewrapped j).endJob.nextChoice
  (followOrder (Config.rewrapOrder s.choices)).foldl State.follow t

/-- REWRAP_COMPLETION (R75). -/
def execRewrapCompletion (s : State) : Host.Outcome State Fault Refusal :=
  .next (whenRunning s fun s =>
    match s.engine.job with
    | some (.rewrap j) => completeRewrap j s
    | _ => s)

/-! ### OPEN (R76, R142 to R145) -/

/-- The record number of a response record's header (12.3). -/
def responseNumber (r : List Byte) : Nat := fieldAt r 0 4
/-- The lane of a response record's header (12.3). -/
def responseLane (r : List Byte) : Nat := fieldAt r 4 1
/-- The lane sequence of a response record's header (12.3). -/
def responseSeq (r : List Byte) : Nat := fieldAt r 5 3
/-- The response key epoch of a response record's header (12.3). -/
def responseEpoch (r : List Byte) : Nat := fieldAt r 8 2

/-- The result of an acquirer response from its code; undefined encodings have none (12.3, R143). -/
def acquirerResult (b : Byte) : Option AcquirerResult :=
  match b.toNat with
  | 1 => some .approved
  | 2 => some .declined
  | 3 => some .refer
  | _ => none

/-- The per-response key (R57). -/
def responseKeyFor (k : Key) (r : List Byte) : Key :=
  Config.deriveKey k .response (responseNumber r) (responseLane r) (responseSeq r)

/-- What the cipher yields of a response record: nothing if its tag fails or its result is undefined, else the response
to deliver (R57, R143). -/
def openResponse (k : Key) (r : List Byte) : Option Response :=
  let key := responseKeyFor k r
  if Config.tagPasses key (slice r 0 32) (slice r 32 16) then
    let plain := decipher key (slice r 16 16)
    (acquirerResult ((plain[0]?).getD 0)).map fun res =>
      ⟨responseNumber r, res, slice plain 1 6, slice plain 7 6⟩
  else none

/-- The intake's last outcome: the code with the record number of the header (R142 to R144). -/
def State.lastOutcome (s : State) (o : OpenOutcome) (r : List Byte) : State :=
  s.updIntake fun i => { i with last := some (o, responseNumber r) }

/-- The suspension test of a FORGED outcome (R145). -/
def State.testSuspension (s : State) : State :=
  if s.cfg.forgedLimit ≠ 0 ∧ s.cfg.forgedLimit ≤ s.intake.forged ∧ s.intake.suspended = false then
    (s.updIntake fun i => { i with suspended := true }).post .up .suspended
  else s

/-- A FORGED outcome (R143). -/
def forgedOutcome (r : List Byte) (s : State) : State :=
  (((s.updIntake fun i => { i with forged := min 255 (i.forged + 1) }).post .up .forged).lastOutcome .forged
    r).testSuspension

/-- The lane that a response is VALID for: lane 0 to 15, waiting for this record number and lane sequence (R144). -/
def boundLane (r : List Byte) (s : State) : Option (Fin 16) :=
  if responseLane r < 16 then
    match s.lanes[laneOf (responseLane r)].mode with
    | .waitResponse a _ =>
      if a.number = responseNumber r ∧ a.laneSeq = responseSeq r then some (laneOf (responseLane r)) else none
    | _ => none
  else none

/-- A VALID outcome: delivery to the lane, the awaiting flag cleared, a sign (R144, R19). -/
def validOutcome (lane : Fin 16) (resp : Response) (r : List Byte) (s : State) : State :=
  (((s.laneOutcome lane fun l => { l with mode := .answered resp }).clearAwaiting
    (responseNumber r)).linkSign).lastOutcome .valid r

/-- A LATE outcome: counted, posted, a sign (R144). -/
def lateOutcome (r : List Byte) (s : State) : State :=
  (((s.updIntake fun i => { i with late := min 255 (i.late + 1) }).post .up .late).linkSign).lastOutcome .late r

/-- The outcome of an opening: the first test that applies decides (R142 to R144). -/
def openingOutcome (j : OpenJob) (s : State) : State :=
  match j.key with
  | none => s.lastOutcome .noKey j.record
  | some k =>
    if responseEpoch j.record ≠ k.epoch then s.lastOutcome .staleKey j.record
    else
      match openResponse k.key j.record with
      | none => forgedOutcome j.record s
      | some resp =>
        match boundLane j.record s with
        | some lane => validOutcome lane resp j.record s
        | none => lateOutcome j.record s

/-- OPEN_COMPLETION (R76, R142 to R145). -/
def execOpenCompletion (s : State) : Host.Outcome State Fault Refusal :=
  .next (whenRunning s fun s =>
    match s.engine.job with
    | some (.opening j) => openingOutcome j s.endJob
    | _ => s)

end Sys2Proof.Machine
end

