-- ==== Sys2Proof/Machine/ControlCommands.lean ====
section
/-! DEFINITION. Writes of control items: watermarks, use limit, configuration, events, masks and write status (R180,
R184, R186). A write with fewer words than its item holds is dropped BAD_FORMAT; words beyond the item are ignored. -/

namespace Sys2Proof.Machine

/-- A control write too short for its item is dropped BAD_FORMAT, else its effect takes place (R180). -/
def controlEffect (p : PortId) (target : Target) (index : Word) (hdr : Header) (need : Nat) (words : List DataWord)
    (effect : State → State) (s : State) : State :=
  if words.length < need then s.recordRefusal p target index hdr .badFormat else effect s

/-- Word `i` of a write, as a quantity. -/
def wordAt (words : List DataWord) (i : Nat) : Nat := ((values words)[i]?.getD 0).toNat

/-- The 32-bit value of a write's first two words, high word first (R191). -/
def longAt (words : List DataWord) : BitVec 32 := BitVec.ofNat 32 (wordAt words 0 * 65536 + wordAt words 1)

/-! ### Watermarks and use limit (R88, R89, R162 to R164) -/

/-- The watermarks stored, and the high-mark flag evaluated under the new marks (R88, R89). -/
def watermarksEffect (words : List DataWord) (s : State) : State :=
  let t := s.setCfg (storedMarks (wordAt words 0) (wordAt words 1) (wordAt words 2) (wordAt words 3) s.cfg)
  if s.store.armed then t.evalHigh else t.evalLow

/-- WATERMARKS_WRITE (R88, R89). -/
def execWatermarksWrite (stage : Stage) (index : Word) (hdr : Header) (words : List DataWord) (s : State) :
    Host.Outcome State Fault Refusal :=
  .next (s.portWrite .up stage ⟨watermarksItem, index, hdr, words⟩
    (controlEffect .up watermarksItem index hdr 4 words (watermarksEffect words)))

/-- The use limit stored, 0 as 1 and at most 1,048,576 (R162). -/
def storedLimit (n : Nat) : Nat := clamp 1 Config.maxUses n

/-- A write of the use limit (R162 to R164): the wear test, then the spending or the end of the spending of the ACTIVE
key. -/
def useLimitEffect (limit : Nat) (s : State) : State :=
  let t := (s.updKeys fun k => { k with useLimit := storedLimit limit }).testWear
  if t.keys.activeSpent then (if s.keys.activeSpent then t else t.onSpent)
  else if s.keys.activeSpent then t.updKeys fun k => { k with pendingRoll := false }
  else t

/-- USE_LIMIT_WRITE (R162 to R164). -/
def execUseLimitWrite (stage : Stage) (index : Word) (hdr : Header) (words : List DataWord) (s : State) :
    Host.Outcome State Fault Refusal :=
  .next (s.portWrite .up stage ⟨useLimitItem, index, hdr, words⟩
    (controlEffect .up useLimitItem index hdr 2 words (useLimitEffect (longAt words).toNat)))

/-! ### The other configuration items (R180) -/

/-- The rewrap share counter set down to a newly written, smaller share (R59). -/
def Engine.within (e : Engine) (share : Nat) : Engine := { e with share := min share e.share }

/-- A configuration item stored with its clamped value (R180). -/
def configEffect (item : ConfigItem) (words : List DataWord) (s : State) : State :=
  let t := s.setCfg (storedConfig item (values words) s.cfg)
  if item = .rewrapShare then t.updEngine fun e => e.within t.cfg.rewrapShare else t

/-- CONFIG_WRITE (R180). -/
def execConfigWrite (stage : Stage) (item : ConfigItem) (index : Word) (hdr : Header) (words : List DataWord)
    (s : State) : Host.Outcome State Fault Refusal :=
  .next (s.portWrite .up stage ⟨configTarget item, configIndex item index, hdr, words⟩
    (controlEffect .up (configTarget item) (configIndex item index) hdr (configWords item) words
      (configEffect item words)))

/-! ### Event status, event mask and write status of a port (R184, R186) -/

/-- The event status with the bits written as 1 cleared (R186). -/
def Port.clearEvents (q : Port) (bits : BitVec 32) : Port := { q with events := q.events &&& ~~~bits }

/-- EVENT_STATUS_CLEAR (R186). -/
def execEventStatusClear (stage : Stage) (port : PortId) (hdr : Header) (words : List DataWord) (s : State) :
    Host.Outcome State Fault Refusal :=
  .next (s.portWrite port stage ⟨eventStatusItem, portIndex port, hdr, words⟩
    (controlEffect port eventStatusItem (portIndex port) hdr 2 words fun s =>
      s.updPort port fun q => q.clearEvents (longAt words)))

/-- The event mask replaced; a port has no bit for an event that it does not have (R186, R191). -/
def Port.setMask (q : Port) (p : PortId) (bits : BitVec 32) : Port := { q with mask := bits &&& portEvents p }

/-- EVENT_MASK_WRITE (R186). -/
def execEventMaskWrite (stage : Stage) (port : PortId) (hdr : Header) (words : List DataWord) (s : State) :
    Host.Outcome State Fault Refusal :=
  .next (s.portWrite port stage ⟨eventMaskItem, portIndex port, hdr, words⟩
    (controlEffect port eventMaskItem (portIndex port) hdr 2 words fun s =>
      s.updPort port fun q => q.setMask port (longAt words)))

/-- The write-status item cleared (R184). -/
def Port.clearStatus (q : Port) : Port := { q with lastRefusal := none, refusalCount := 0, truncated := false }

/-- WRITE_STATUS_CLEAR (R184): a write of any length clears the item. -/
def execWriteStatusClear (stage : Stage) (port : PortId) (hdr : Header) (words : List DataWord) (s : State) :
    Host.Outcome State Fault Refusal :=
  .next (s.portWrite port stage ⟨writeStatusItem, portIndex port, hdr, words⟩ fun s =>
    s.updPort port Port.clearStatus)

end Sys2Proof.Machine
end

