-- ==== Sys2Proof/Machine/IntakeCommands.lean ====
section
/-! DEFINITION. The response intake's writes: the claim at the header and the application (8.3). -/

namespace Sys2Proof.Machine

/-- The number of bytes of a response record: 24 data words (R138, R141). -/
def responseWords : Nat := 24

/-- An INTAKE write: its header and its data words. -/
def intakePosted (index : Word) (b : Burst) : PostedWrite := ⟨intakeWindow, index, b.hdr, b.words⟩

/-- INTAKE_CLAIM (R139, R181): the header of an INTAKE write claims its places and its data words fill the queue place,
or the write is held while either is lacking. A port carries one transaction at a time, so nothing arrives while one is
held (11.1). -/
def execIntakeClaim (index : Word) (burst : Burst) (s : State) : Host.Outcome State Fault Refusal :=
  .next (whenRunning s fun s =>
    if s.up.held.isSome then s
    else if s.intakeAdmissible then s.admitIntake (intakePosted index burst)
    else s.setHeld .up (some ⟨.intake (intakePosted index burst), s.cfg.holdLimit, false⟩))

/-- An INTAKE write at the intake, its claim released (R141): dropped BAD_FORMAT or SUSPENDED, or queued as a record
made of its first 24 data words. -/
def intakeEffect (index : Word) (hdr : Header) (words : List DataWord) (s : State) : State :=
  if words.length < responseWords then s.recordRefusal .up intakeWindow index hdr .badFormat
  else if s.intake.suspended then s.recordRefusal .up intakeWindow index hdr .suspended
  else s.updIntake fun i => { i with queue := i.queue ++ [bytesOfWords ((values words).take responseWords)] }

/-- The claim of an applied INTAKE write ends: its place becomes FULL or FREE (R141). -/
def State.endClaim (s : State) : State := s.updIntake fun i => { i with claimed := i.claimed - 1 }

/-- INTAKE_WRITE (R141): the INTAKE write of these data words, at the front of the uplink queue, is applied, which frees
its place. With any other write in front, or none, it is not applied. -/
def execIntakeWrite (words : List DataWord) (s : State) : Host.Outcome State Fault Refusal :=
  .next (whenRunning s fun s =>
    match s.up.posted with
    | w :: rest =>
      if w.target = intakeWindow ∧ w.words = shorten words then
        (intakeEffect w.index w.hdr w.words (s.setPosted .up rest).endClaim).resumePort .up
      else s
    | [] => s)

end Sys2Proof.Machine
end

