-- ==== Sys2Proof/Machine/KeyLine.lean ====
section
/-! DEFINITION. The key line: frames, CRC, the receiver and the key loading unit's commands (10.7, 12.5). -/

namespace Sys2Proof.Machine

/-! ### CRC and frames (R169, R192, 12.5) -/

/-- One bit of the CRC (R192): top bit exclusive-ORed with the data bit, shift left, and 0x1021 if that was 1. -/
def crcBit (r : BitVec 16) (b : Bool) : BitVec 16 :=
  if (r.getLsbD 15 ^^ b) then (r <<< 1) ^^^ 0x1021#16 else r <<< 1

/-- One byte of the CRC, most significant bit first (R192). -/
def crcByte (r : BitVec 16) (b : Byte) : BitVec 16 :=
  [7, 6, 5, 4, 3, 2, 1, 0].foldl (fun r i => crcBit r (b.getLsbD i)) r

/-- The CRC of the given bytes (R192). -/
def crc (bs : List Byte) : BitVec 16 := bs.foldl crcByte 0xFFFF#16

/-- The sync byte (12.5). -/
def syncValue : Byte := 0x7E

/-- The largest payload of a frame (R169). -/
def maxPayload : Nat := 64

/-- What follows the sync byte of a frame: command, length, payload and CRC, high byte first (R169). -/
def frameTail (command : Byte) (payload : List Byte) : List Byte :=
  let body := command :: BitVec.ofNat 8 payload.length :: payload
  body ++ bytesOfWord (crc body)

/-- A whole frame (R169). -/
def frameBytes (command : Byte) (payload : List Byte) : List Byte := syncValue :: frameTail command payload

/-- The status of a reply (12.5). -/
inductive KeyStatus where
  | ok
  | badFrame
  | badCommand
  | badLength
  | locked
  | noTransport
  | badRole
  | busy
  | badEpoch
  | checkMismatch
  | noNext
  | badSelector
deriving DecidableEq, Repr

/-- The code of a reply status (12.5). -/
def KeyStatus.code : KeyStatus → Byte
  | .ok => 0x00
  | .badFrame => 0x01
  | .badCommand => 0x02
  | .badLength => 0x03
  | .locked => 0x04
  | .noTransport => 0x05
  | .badRole => 0x06
  | .busy => 0x07
  | .badEpoch => 0x08
  | .checkMismatch => 0x09
  | .noNext => 0x0A
  | .badSelector => 0x0B

/-- A reply: the interface sends it and is REPLYING (R169, R170). It carries the command byte of its frame. -/
def State.reply (s : State) (command : Byte) (status : KeyStatus) (data : List Byte) : State :=
  s.setKeyLine (.replying (frameBytes command (status.code :: data)))

/-! ### Command codes and payloads (12.5) -/

def loadTransportCode : Byte := 0x10
def loadKeyCode : Byte := 0x11
def discardNextCode : Byte := 0x12
def setPolicyCode : Byte := 0x20
def setShopCode : Byte := 0x21
def queryCode : Byte := 0x30

/-- A key's 16 bytes (12.1). -/
def keyBytes (k : BitVec 128) : List Byte := beBytes 16 k.toNat

/-- The payload of LOAD_TRANSPORT (12.5). -/
def loadTransportPayload (key : Key) (check : CheckValue) : List Byte := keyBytes key ++ beBytes 3 check.toNat

/-- The payload of LOAD_KEY (12.5). -/
def loadKeyPayload (role : Byte) (epoch : BitVec 16) (enciphered : BitVec 128) (check : CheckValue) : List Byte :=
  role :: beBytes 2 epoch.toNat ++ keyBytes enciphered ++ beBytes 3 check.toNat

/-- The payload of SET_SHOP (12.5). -/
def setShopPayload (identity : BitVec 32) : List Byte := beBytes 4 identity.toNat

/-! ### The six commands (R171 to R175) -/

/-- LOAD_TRANSPORT (R171). -/
def loadTransport (key : Key) (check : CheckValue) (s : State) : State :=
  if s.keys.transport.isSome then s.reply loadTransportCode .locked []
  else if checkValueOf key ≠ check then s.reply loadTransportCode .checkMismatch []
  else (s.updKeys fun k => { k with transport := some ⟨key, check⟩ }).reply loadTransportCode .ok []

/-- What LOAD_KEY loads (12.5). -/
inductive LoadRole where
  | next
  | response
deriving DecidableEq, Repr

/-- The role that a role byte names (12.5). -/
def loadRole (b : Byte) : Option LoadRole :=
  match b.toNat with
  | 1 => some .next
  | 2 => some .response
  | _ => none

/-- The accepted load of a NEXT (R172, R160, R164): the lowest EMPTY slot, the highest epoch, and the roll or pending
roll of a spent ACTIVE key. -/
def loadNext (key : Key) (epoch : Nat) (check : CheckValue) (s : State) : State :=
  let t := s.updKeys fun k => { k with slots := loadLowest ⟨.next, key, epoch, 0, check, false⟩ k.slots, highest := epoch }
  if t.keys.activeSpent then t.onSpent else t

/-- The accepted load of the response key (R172, R161). -/
def loadResponse (key : Key) (epoch : Nat) (check : CheckValue) (s : State) : State :=
  s.updKeys fun k => { k with response := some ⟨key, epoch, check⟩ }

/-- LOAD_KEY (R172): the first failing test gives the reply. -/
def loadKey (role : Byte) (epoch : BitVec 16) (enciphered : BitVec 128) (check : CheckValue) (s : State) : State :=
  match s.keys.transport, loadRole role with
  | none, _ => s.reply loadKeyCode .noTransport []
  | some _, none => s.reply loadKeyCode .badRole []
  | some t, some r =>
    if r = .next ∧ (s.keys.find .next).isSome then s.reply loadKeyCode .busy []
    else if epoch.toNat = 0 ∨ (r = .next ∧ epoch.toNat ≤ s.keys.highest) then s.reply loadKeyCode .badEpoch []
    else
      let key := Config.blockCipher.decipher t.key enciphered
      if checkValueOf key ≠ check then s.reply loadKeyCode .checkMismatch []
      else
        match r with
        | .next => (loadNext key epoch.toNat check s).reply loadKeyCode .ok []
        | .response => (loadResponse key epoch.toNat check s).reply loadKeyCode .ok []

/-- The NEXT key discarded (R173): its slot EMPTY, the pending-roll flag CLEAR, KEY_SPENT if the ACTIVE key is spent. -/
def dropNext (s : State) : State :=
  let t := s.updKeys fun k => { k.updRole .next (fun _ => none) with pendingRoll := false }
  if t.keys.activeSpent then t.postBoth .keySpent else t

/-- DISCARD_NEXT (R173). -/
def discardNext (s : State) : State :=
  if (s.keys.find .next).isNone then s.reply discardNextCode .noNext []
  else (dropNext s).reply discardNextCode .ok []

/-- The policy entry that a payload byte holds: an encoding that names no shop class is stored as DROP (R35, 12.5). -/
def policyEntry (b : Byte) : PolicyEntry where
  shopClass :=
    match b.toNat % 8 with
    | 0 => .unset
    | 1 => .clear
    | 2 => .truncate
    | 3 => .wrap
    | _ => .drop
  required := b.getLsbD 7

/-- SET_POLICY (R35, R174). -/
def setPolicy (entries : Vector Byte 15) (s : State) : State :=
  (s.setPolicy (entries.map policyEntry)).reply setPolicyCode .ok []

/-- SET_SHOP (R174). -/
def setShop (identity : BitVec 32) (s : State) : State :=
  if s.keys.identity = 0 then (s.updKeys fun k => { k with identity := identity.toNat }).reply setShopCode .ok []
  else s.reply setShopCode .locked []

/-- A wrapping key slot in QUERY KEYS: role, epoch, use count, check value, 0 where absent (R175). The role's code is that
of a control item. DESIGN CHOICE: log entry 37. -/
def slotQueryBytes (o : Option WrapKey) : List Byte :=
  beBytes 1 (roleCode o) ++ beBytes 2 ((o.map WrapKey.epoch).getD 0) ++
    beBytes 3 ((o.map WrapKey.uses).getD 0) ++ beBytes 3 ((o.map fun w => w.check.toNat).getD 0)

/-- The data of QUERY KEYS (R175, 12.5). The states of the response key and of the transport key are 0 for EMPTY and 1 for
LOADED, the pending-roll flag 0 for CLEAR and 1 for SET. DESIGN CHOICE: log entry 37. -/
def queryKeys (k : KeyTable) : List Byte :=
  k.slots.toList.flatMap slotQueryBytes ++
    beBytes 1 k.response.isSome.toNat ++ beBytes 2 ((k.response.map ResponseKey.epoch).getD 0) ++
    beBytes 3 ((k.response.map fun r => r.check.toNat).getD 0) ++
    beBytes 1 k.transport.isSome.toNat ++ beBytes 3 ((k.transport.map fun t => t.check.toNat).getD 0) ++
    beBytes 2 k.highest ++ beBytes 3 k.useLimit ++ beBytes 1 k.pendingRoll.toNat

/-- The data of QUERY POLICY (R175, 12.5). -/
def queryPolicy (s : State) : List Byte := policyBytes s.policy ++ beBytes 4 s.keys.identity

/-- A spill list entry in QUERY SPILL (12.5). -/
def spillItemBytes (x : SpillItem) : List Byte := beBytes 4 x.number ++ beBytes 4 x.charge ++ beBytes 2 x.batch

/-- The data of QUERY SPILL: the count, then up to 6 entries from a position (R175, 12.5). -/
def querySpill (l : List SpillItem) (index : Nat) : List Byte :=
  beBytes 2 l.length ++ ((l.drop index).take 6).flatMap spillItemBytes

/-- QUERY (R175): it changes nothing but the receiver, which replies. -/
def query (selector index : Byte) (s : State) : State :=
  match selector.toNat with
  | 1 => s.reply queryCode .ok (queryKeys s.keys)
  | 2 => s.reply queryCode .ok (queryPolicy s)
  | 3 => s.reply queryCode .ok (querySpill s.spill.list index.toNat)
  | _ => s.reply queryCode .badSelector []

/-! ### Execution of a frame (R170) -/

/-- The payload size of a known command (Table 10-2). -/
def payloadSize (command : Byte) : Option Nat :=
  match command.toNat with
  | 0x10 => some 19
  | 0x11 => some 22
  | 0x12 => some 0
  | 0x20 => some 15
  | 0x21 => some 4
  | 0x30 => some 2
  | _ => none

/-- Byte `i` of a payload. -/
def payloadByte (payload : List Byte) (i : Nat) : Byte := payload[i]?.getD 0

/-- A known command with a payload of its size (R171 to R175). -/
def runCommand (command : Byte) (payload : List Byte) (s : State) : State :=
  match command.toNat with
  | 0x10 => loadTransport (BitVec.ofNat 128 (fieldAt payload 0 16)) (BitVec.ofNat 24 (fieldAt payload 16 3)) s
  | 0x11 =>
    loadKey (payloadByte payload 0) (BitVec.ofNat 16 (fieldAt payload 1 2)) (BitVec.ofNat 128 (fieldAt payload 3 16))
      (BitVec.ofNat 24 (fieldAt payload 19 3)) s
  | 0x12 => discardNext s
  | 0x20 => setPolicy (Vector.ofFn fun i => payloadByte payload i.val) s
  | 0x21 => setShop (BitVec.ofNat 32 (fieldAt payload 0 4)) s
  | 0x30 => query (payloadByte payload 0) (payloadByte payload 1) s
  | _ => s

/-- A frame with a good CRC (R170): BAD_COMMAND for an unknown command, BAD_LENGTH for a wrong payload size, else the
command is executed and replied to. -/
def executeFrame (command : Byte) (payload : List Byte) (s : State) : State :=
  match payloadSize command with
  | none => s.reply command .badCommand []
  | some n => if payload.length ≠ n then s.reply command .badLength [] else runCommand command payload s

/-- The last CRC byte (R170): the receive frame buffer ends, the CRC is checked and the frame executed, or answered
BAD_FRAME. -/
def endFrame (buffer : List Byte) (command : Byte) (length : Nat) (s : State) : State :=
  if bytesOfWord (crc (buffer.take (2 + length))) = slice buffer (2 + length) 2 then
    executeFrame command (slice buffer 2 length) (s.setKeyLine .hunt)
  else s.reply command .badFrame []

/-- What a receive frame buffer leads to once a byte has been stored in it (R170). -/
def afterByte (buffer : List Byte) (s : State) : State :=
  match buffer with
  | command :: length :: _ =>
    if maxPayload < length.toNat then s.reply command .badFrame []
    else if buffer.length = 4 + length.toNat then endFrame buffer command length.toNat s
    else s.setKeyLine (.receiving buffer)
  | _ => s.setKeyLine (.receiving buffer)

/-- One byte received on the key line (R170). DEDUCED: log entry 21. -/
def State.receive (s : State) (b : Byte) : State :=
  match s.keyLine with
  | .hunt => if b = syncValue then s.setKeyLine (.receiving []) else s
  | .receiving buffer => afterByte (buffer ++ [b]) s
  | .replying _ => s

/-- Bytes received one after another on the key line (R170). -/
def State.receiveAll (s : State) (bs : List Byte) : State := bs.foldl State.receive s

/-! ### The commands of the table -/

/-- The bytes of a frame after its sync byte, received while the part runs (R104, R169, R170). -/
def frameArrives (command : Byte) (payload : List Byte) (s : State) : State :=
  whenRunning s fun s => s.receiveAll (frameTail command payload)

/-- LOAD_TRANSPORT (R171). -/
def execLoadTransport (key : Key) (check : CheckValue) (s : State) : Host.Outcome State Fault Refusal :=
  .next (frameArrives loadTransportCode (loadTransportPayload key check) s)

/-- LOAD_KEY (R172). -/
def execLoadKey (role : Byte) (epoch : BitVec 16) (enciphered : BitVec 128) (check : CheckValue) (s : State) :
    Host.Outcome State Fault Refusal :=
  .next (frameArrives loadKeyCode (loadKeyPayload role epoch enciphered check) s)

/-- DISCARD_NEXT (R173). -/
def execDiscardNext (s : State) : Host.Outcome State Fault Refusal :=
  .next (frameArrives discardNextCode [] s)

/-- SET_POLICY (R35, R174). -/
def execSetPolicy (entries : Vector Byte 15) (s : State) : Host.Outcome State Fault Refusal :=
  .next (frameArrives setPolicyCode entries.toList s)

/-- SET_SHOP (R174). -/
def execSetShop (identity : BitVec 32) (s : State) : Host.Outcome State Fault Refusal :=
  .next (frameArrives setShopCode (setShopPayload identity) s)

/-- QUERY (R175). -/
def execQuery (selector index : Byte) (s : State) : Host.Outcome State Fault Refusal :=
  .next (frameArrives queryCode [selector, index] s)

/-- BAD_FRAME (R170): the bytes of a frame after its sync byte, whatever they are; those of a frame that is not
executed are answered BAD_FRAME, BAD_COMMAND or BAD_LENGTH. -/
def execBadFrame (bytes : List Byte) (s : State) : Host.Outcome State Fault Refusal :=
  .next (whenRunning s fun s => s.receiveAll bytes)

/-- A partial frame is discarded without a reply (R170). -/
def State.discardPartial (s : State) : State :=
  match s.keyLine with
  | .receiving _ => s.setKeyLine .hunt
  | _ => s

/-- KEY_LINE_GAP (R170). -/
def execKeyLineGap (s : State) : Host.Outcome State Fault Refusal :=
  .next (whenRunning s State.discardPartial)

/-- KEY_LINE_BYTE_FAULT (R170). -/
def execKeyLineByteFault (s : State) : Host.Outcome State Fault Refusal :=
  .next (whenRunning s fun s => s.discardPartial)

/-- KEY_LINE_REPLY_END (R170). -/
def execKeyLineReplyEnd (s : State) : Host.Outcome State Fault Refusal :=
  .next (whenRunning s fun s =>
    match s.keyLine with
    | .replying _ => s.setKeyLine .hunt
    | _ => s)

/-- SYNC_BYTE (R170). -/
def execSyncByte (s : State) : Host.Outcome State Fault Refusal :=
  .next (whenRunning s fun s => s.receive syncValue)

end Sys2Proof.Machine
end

