-- ==== Sys2Proof/Machine/LaneCommands.lean ====
section
/-! DEFINITION. The lane commands: LANE_BUF writes, LANE_CMD writes and reads, LANE_RSP reads, the online timer
(chapter 1). -/

namespace Sys2Proof.Machine

/-! ### Writing the assembly buffer (R1 to R4) -/

/-- One byte stored into the buffer and marked WRITTEN, where its byte enable is on (R1). -/
def Lane.storeByte (l : Lane) (i : Nat) (enable : Bool) (b : Byte) : Lane :=
  if enable then { l with buffer := l.buffer.setIfInBounds i b, written := l.written.setIfInBounds i true } else l

/-- One data word stored at a word offset: the high byte at 2k, the low byte at 2k + 1 (1.2, R1). -/
def Lane.storeWord (l : Lane) (ow : Nat × DataWord) : Lane :=
  (l.storeByte (2 * ow.1) ow.2.high (ow.2.value.extractLsb' 8 8)).storeByte (2 * ow.1 + 1) ow.2.low
    (ow.2.value.extractLsb' 0 8)

/-- A burst stored word by word (R1). The first byte stored moves an IDLE lane to ASSEMBLING. -/
def Lane.storeBurst (l : Lane) (places : List (Nat × DataWord)) : Lane :=
  let t := places.foldl Lane.storeWord l
  if places.any fun ow => ow.2.high || ow.2.low then { t with mode := .assembling } else t

/-- Whether the lane takes buffer bytes: IDLE or ASSEMBLING (R1, R2). -/
def Lane.open (l : Lane) : Bool := decide (l.mode = .idle ∨ l.mode = .assembling)

/-- A LANE_BUF write at its lane: stored word by word with OVERRUN recorded where words are dropped, or dropped whole
LANE_BUSY (R1 to R4). -/
def laneBufEffect (lane : Fin 16) (hdr : Header) (words : List DataWord) (s : State) : State :=
  if s.lanes[lane].open then
    let t := s.updLane lane fun l => l.storeBurst (burstPlaces hdr.form hdr.offset.toNat words)
    if burstOverruns hdr.form hdr.offset.toNat words.length then
      t.recordRefusal .lp laneBufWindow (laneIndex lane) hdr .overrun
    else t
  else s.recordRefusal .lp laneBufWindow (laneIndex lane) hdr .laneBusy

/-- LANE_BUF_WRITE (R1 to R4). -/
def execLaneBufWrite (stage : Stage) (lane : Fin 16) (hdr : Header) (words : List DataWord) (s : State) :
    Host.Outcome State Fault Refusal :=
  .next (s.portWrite .lp stage ⟨laneBufWindow, laneIndex lane, hdr, words⟩ (laneBufEffect lane hdr (shorten words)))

/-! ### Lane commands (R5 to R10) -/

/-- A LANE_CMD write: its command word and the words that follow it. -/
def laneCmdWrite (lane : Fin 16) (hdr : Header) (command : Word) (extra : List DataWord) : PostedWrite :=
  ⟨laneCmdWindow, laneIndex lane, hdr, fullWord command :: extra⟩

/-- WRAP at its lane (R5, R6): in ASSEMBLING the record checks decide, then the orphan flag; elsewhere EMPTY or
BUSY. A failing check keeps its own code also while the orphan flag is SET, where R5 and R27 leave BUSY open.
DESIGN CHOICE: log entry 34. -/
def wrapEffect (lane : Fin 16) (s : State) : State :=
  let l := s.lanes[lane]
  match l.mode with
  | .assembling =>
    match recordChecks l.buffer l.written s.policy s.link.state l.generation with
    | .error c => s.laneResult lane c.result
    | .ok r => if l.orphan then s.laneResult lane .busy else s.updLane lane fun x => { x with mode := .queued r }
  | .idle => s.laneResult lane .empty
  | _ => s.laneResult lane .busy

/-- WRAP (R5, R6). -/
def execWrap (stage : Stage) (lane : Fin 16) (hdr : Header) (extra : List DataWord) (s : State) :
    Host.Outcome State Fault Refusal :=
  .next (s.portWrite .lp stage (laneCmdWrite lane hdr wrapWord extra) (wrapEffect lane))

/-- The lane after an accepted ABANDON (R8). -/
def Lane.abandoned (l : Lane) : Lane := { l.clearBuffer with mode := .idle, result := .abandoned }

/-- ABANDON at its lane (R8): ASSEMBLING and QUEUED go to IDLE, a pending request withdrawn; elsewhere BUSY. -/
def abandonEffect (lane : Fin 16) (s : State) : State :=
  match s.lanes[lane].mode with
  | .assembling => s.updLane lane Lane.abandoned
  | .queued _ => s.updLane lane Lane.abandoned
  | _ => s.laneResult lane .busy

/-- ABANDON (R8). -/
def execAbandon (stage : Stage) (lane : Fin 16) (hdr : Header) (extra : List DataWord) (s : State) :
    Host.Outcome State Fault Refusal :=
  .next (s.portWrite .lp stage (laneCmdWrite lane hdr abandonWord extra) (abandonEffect lane))

/-- The lane after RESET_LANE (R9, R10): every request, timer and slot gone with its state, the generation raised, the
orphan flag set if a job of the lane is in service. -/
def Lane.resetLane (l : Lane) : Lane :=
  { l.clearBuffer with
    mode := .idle
    generation := succGeneration l.generation
    orphan := l.orphan || l.inService
    result := .reset
    attention := false }

/-- RESET_LANE at its lane (R9, R10): a waiting lane also has the awaiting flag of its awaited record cleared. -/
def resetLaneEffect (lane : Fin 16) (s : State) : State :=
  let t :=
    match s.lanes[lane].mode with
    | .waitResponse a _ => s.clearAwaiting a.number
    | _ => s
  t.updLane lane Lane.resetLane

/-- RESET_LANE (R9, R10). -/
def execResetLane (stage : Stage) (lane : Fin 16) (hdr : Header) (extra : List DataWord) (s : State) :
    Host.Outcome State Fault Refusal :=
  .next (s.portWrite .lp stage (laneCmdWrite lane hdr resetLaneWord extra) (resetLaneEffect lane))

/-- A LANE_CMD write that names no command: dropped BAD_COMMAND, or BAD_FORMAT without a data word (R10). A write that
names a command is none of these. -/
def laneCmdBadEffect (lane : Fin 16) (hdr : Header) (words : List DataWord) (s : State) : State :=
  match laneCmdFault (values words) with
  | some reason => s.recordRefusal .lp laneCmdWindow (laneIndex lane) hdr reason
  | none => s

/-- LANE_CMD_BAD_COMMAND (R10). -/
def execLaneCmdBadCommand (stage : Stage) (lane : Fin 16) (hdr : Header) (words : List DataWord) (s : State) :
    Host.Outcome State Fault Refusal :=
  .next (s.portWrite .lp stage ⟨laneCmdWindow, laneIndex lane, hdr, words⟩
    (laneCmdBadEffect lane hdr (shorten words)))

/-! ### Lane reads (R20, R21) -/

/-- LANE_CMD_READ (R20). -/
def execLaneCmdRead (lane : Fin 16) (hdr : Header) (s : State) : Host.Outcome State Fault Refusal :=
  .next (s.portRead .lp ⟨.laneCmd lane, laneIndex lane, hdr⟩)

/-- LANE_RSP_READ (R21). -/
def execLaneRspRead (lane : Fin 16) (hdr : Header) (s : State) : Host.Outcome State Fault Refusal :=
  .next (s.portRead .lp ⟨.laneRsp lane, laneIndex lane, hdr⟩)

/-! ### The online timer (R17) -/

/-- The advice request that a waiting lane posts at its timer's expiry (R17). -/
def adviceFor (a : Awaited) (generation : Nat) : AdviceRequest :=
  ⟨a.number, a.amount, a.cardClass, generation, false⟩

/-- The expiry of a waiting lane's online timer (R17): the awaiting flag, the miss, then FALLBACK or NO_ANSWER. -/
def timerEffect (lane : Fin 16) (s : State) : State :=
  match s.lanes[lane].mode with
  | .waitResponse a _ =>
    let t := (s.clearAwaiting a.number).linkMiss
    if a.fallback then t.updLane lane fun l => { l with mode := .fallback (adviceFor a l.generation) }
    else t.laneOutcome lane fun l => { l with mode := .idle, result := .noAnswer a.number }
  | _ => s

/-- ONLINE_TIMER_EXPIRY (R17). -/
def execOnlineTimerExpiry (lane : Fin 16) (s : State) : Host.Outcome State Fault Refusal :=
  .next (whenRunning s (timerEffect lane))

end Sys2Proof.Machine
end

