-- ==== Sys2Proof/Machine/PortEvents.lean ====
section
/-! DEFINITION. What the ports do by themselves: refusals at the header, the hold limit and the burst limit of a read
(R179, R180, R182, R183). -/

namespace Sys2Proof.Machine

/-- A transaction refused at its header (R179, R180, R184): recorded; a read is answered with the status of its reason
and zero data words, a write's data words are discarded. The burst limit counts the words that cross (R183). -/
def refuseHeader (p : PortId) (dir : Direction) (target : Target) (index : Word) (hdr : Header) (count : Nat)
    (reason : Reason) (s : State) : State :=
  let t := s.recordRefusal p target index hdr reason
  let t :=
    match dir with
    | .read => t.answerWith p (if reason = Reason.denied then ReadStatus.denied else ReadStatus.badWindow) hdr []
    | .write => t.endAnswer p
  t.noteBurst p count

/-- HEADER_REFUSAL (R179, R180): a header that the decoder refuses. The header of a read of a control item that it
admits is that read's arrival, for which the table has no row of its own (R180, R181; DESIGN CHOICE, log entry 10). Any
other header that it admits, or one that arrives while a transaction is held, is none. -/
def execHeaderRefusal (port : PortId) (dir : Direction) (control : Bool) (code : BitVec 5) (index : Word)
    (hdr : Header) (count : Nat) (s : State) : Host.Outcome State Fault Refusal :=
  .next (
    match decoderRefusal port dir control code index with
    | some reason => whenRunning s fun s =>
      if (s.port port).held.isSome then s else refuseHeader port dir ⟨control, code⟩ index hdr count reason s
    | none =>
      if dir = .read ∧ control = true then s.portRead port ⟨.control code count, index, hdr⟩ else s)

/-- HOLD_LIMIT_EXPIRY (R182). -/
def execHoldLimitExpiry (port : PortId) (count : Nat) (s : State) : Host.Outcome State Fault Refusal :=
  .next (whenRunning s fun s => s.expireHold port count)

/-- READ_BURST_TRUNCATION (R183): the 65th data word of the read that the port answers crosses the port. -/
def execReadBurstTruncation (port : PortId) (s : State) : Host.Outcome State Fault Refusal :=
  .next (whenRunning s fun s =>
    if (s.port port).sending then s.noteBurst port (Config.burstLimit + 1) else s)

end Sys2Proof.Machine
end

