-- ==== Sys2Proof/Machine/Resets.lean ====
section
/-! DEFINITION. Tamper, RESET and power: the abandonment of the job in service, the warm start and the cold start (4.8,
5.10, 10.8, 11.8). -/

namespace Sys2Proof.Machine

/-! ### Abandonment (R79, R85, R156, R162) -/

/-- The entry that an abandoned WRAP, ADVISE or CLOSE claimed: the tail entry, if it is WRITING under the job's
number (R85). -/
def claimedEntry (n : Nat) (d : List Entry) : Option Entry :=
  d.getLast?.filter fun e => decide (e.number = n ∧ e.state = .writing)

/-- The removal of an abandoned entry (R85): tail and counter set back, its charge released, the low marks evaluated. -/
def State.removeClaim (s : State) (n : Nat) : State :=
  match claimedEntry n s.store.directory with
  | some e => ((s.updStore fun st => st.removeTail e).release e.charge).evalLow
  | none => s

/-- The restoration of an abandoned WRAP, ADVISE or CLOSE (R79): the key use set back, the entry removed, the key table
told without an event (R166). -/
def State.undoClaim (s : State) (n epoch : Nat) : State :=
  (((s.setBackUse epoch).removeClaim n).settleRetiring false)

/-- An abandoned lane job also sets its lane's sequence back (R14, R79). -/
def State.undoLaneClaim (s : State) (lane : Fin 16) (n epoch : Nat) : State :=
  (s.undoClaim n epoch).updLane lane fun l => { l with seq := predSeq l.seq }

/-- The batch accumulator after the abandonment of a CLOSE (R156). -/
def Batch.loseSummary (b : Batch) (summary : Nat) : Batch :=
  { b with summaryLost := true, first := summary, shopSeq := predSeq b.shopSeq }

/-- The entry of an abandoned REWRAP: back to its prior state if it is still REWRAPPING (R79). -/
def Entry.unrewrapped (e : Entry) : Entry :=
  match e.state with
  | .rewrapping prior => { e with state := prior.state }
  | _ => e

/-- The restoration that the kind of the job calls for (R79). DEDUCED: log entry 25. -/
def State.undoJob (s : State) : Job → State
  | .wrap j => s.undoLaneClaim j.lane j.number j.epoch
  | .advise j => s.undoLaneClaim j.lane j.number j.epoch
  | .close j => (s.undoClaim j.number j.epoch).updBatch fun b => b.loseSummary j.number
  | .rewrap j =>
    ((s.updStore fun st => st.updEntry j.target Entry.unrewrapped).setBackUse j.epoch).campaignLook
  | .opening _ => s

/-- The job in service, if any, is abandoned and the engine is IDLE (R79, R59). -/
def State.abandonJob (s : State) : State :=
  match s.engine.job with
  | some j => (s.undoJob j).updEngine fun e => { e with job := none }
  | none => s

/-! ### Lanes, intake, engine and entries at a reset (R22, R80, R102, R149) -/

/-- A lane after a warm reset (R22): the sequence is kept. -/
def Lane.restarted (l : Lane) : Lane := { Lane.cold with seq := l.seq, result := .lost }

/-- A lane after a tamper (R22). -/
def Lane.tampered : Lane := { Lane.cold with result := .lost }

/-- The engine's pointers and counter after a reset (R80). -/
def Engine.restarted (e : Engine) : Engine := { e with aPtr := 0, bPtr := 0, share := 0 }

/-- The intake after a warm reset (R149). -/
def Intake.restarted (i : Intake) : Intake := { i with queue := [], claimed := 0, suspended := false, last := none }

/-- The intake after a tamper (R149). -/
def Intake.tampered : Intake := ⟨[], 0, false, 0, 0, none⟩

/-- An entry with its awaiting flag cleared (R102). -/
def Entry.unawaited (e : Entry) : Entry := { e with awaiting := false }

/-- An entry's state after a warm start: OFFERED and SPILLING become HELD (R106). -/
def EntryState.restarted : EntryState → EntryState
  | .offered _ => .held
  | .spilling => .held
  | st => st

/-- An entry after a warm start (R106). -/
def Entry.restarted (e : Entry) : Entry := { e with state := e.state.restarted, awaiting := false }

/-- The directory changed entry by entry. -/
def Store.mapEntries (st : Store) (f : Entry → Entry) : Store := { st with directory := st.directory.map f }

/-! ### Tamper (R176, R107, R188) -/

/-- The key table after a tamper (R176, R177): highest epoch, use limit and shop identity are kept. -/
def KeyTable.zeroised (k : KeyTable) : KeyTable :=
  { k with
    slots := Vector.replicate 3 none
    response := none
    transport := none
    pendingRoll := false
    retiring := 0
    campaign := none }

/-- The lanes, the intake and the engine at a tamper, once the job is abandoned (R22, R80, R149).
DEDUCED: log entry 19. -/
def State.clearAtTamper (s : State) : State :=
  ((((s.updLanes fun _ => Vector.replicate 16 Lane.tampered).updStore fun st =>
    st.mapEntries Entry.unawaited).updIntake fun _ => Intake.tampered).updEngine Engine.restarted)

/-- TAMPER (R176): the keys are zeroised, the job abandoned, the ports' transactions ended, the lanes and the intake
cleared, and TAMPER posted on both ports. DEDUCED: log entry 12. -/
def execTamper (s : State) : Host.Outcome State Fault Refusal :=
  .next ((((((s.updKeys KeyTable.zeroised).abandonJob).endTransactions).clearAtTamper).setKeyLine .hunt).postBoth
    .tamper)

/-! ### Warm start and cold start (R104 to R106) -/

/-- The part of a warm reset that is made at the assertion, or before the start after a loss of power: the job is
abandoned, the transactions are ended, the key line hunts (R104, R170, R188). DEDUCED: log entry 14. -/
def State.halt (s : State) : State := (s.abandonJob.endTransactions).setKeyLine .hunt

/-- A port after a warm start (R188): the write-status item clear, RESTARTED alone set, the mask kept. -/
def Port.restarted (q : Port) : Port :=
  { q with lastRefusal := none, refusalCount := 0, truncated := false, events := Event.restarted.bit }

/-- The store after a warm start (R106, R89): entries without work in flight, the high-mark flag from the counts. -/
def Store.restarted (st : Store) (cfg : Settings) : Store :=
  let t := st.mapEntries Entry.restarted
  { t with armed := bothLow t cfg }

/-- The campaign after a warm start (R167, R177): its request is cleared and posted again. -/
def State.campaignAnew (s : State) : State := (s.updKeys fun k => { k with campaign := none }).campaignLook

/-- The rest of a warm start: lanes, engine, intake, batch, store, spill unit, link monitor, campaign and ports (R22,
R80, R106, R117, R137, R149, R158, R177, R188). -/
def State.restart (s : State) : State :=
  let t := s.updLanes fun ls => ls.map Lane.restarted
  let t := t.updEngine Engine.restarted
  let t := t.updIntake Intake.restarted
  let t := t.updBatch fun b => { b with closePending := false }
  let t := t.updStore fun st => st.restarted t.cfg
  let t := t.updSpill fun sp => { sp with reservation := none }
  let t := t.setLink ⟨.doubt, 0, 0⟩
  let t := t.campaignAnew
  ((t.updPort .lp Port.restarted).updPort .up Port.restarted).setRun .running

/-- RESET_ASSERTION (R104): the input's level changes; while the part runs, it abandons its job, ends its transactions
and is held in reset. -/
def execResetAssertion (s : State) : Host.Outcome State Fault Refusal :=
  .next ((whenRunning s fun s => s.halt.setRun .inReset).setResetInput true)

/-- A part held in reset whose input is released (R104): the rest of a warm start is made; a cold start was made at
power-up and leaves nothing to do. DESIGN CHOICE: log entry 13. -/
def State.leaveReset (s : State) : State :=
  match s.run with
  | .inReset => s.restart
  | .inColdReset => s.setRun .running
  | _ => s

/-- RESET_RELEASE (R104): the input's level changes, and a part held in reset starts. -/
def execResetRelease (s : State) : Host.Outcome State Fault Refusal :=
  .next (s.setResetInput false).leaveReset

/-- POWER_LOSS (R188, R104): a running part's transactions end (those of a part in reset have ended) and the part stops;
the marker stays valid only if the backup supply holds. A part without main power only loses the marker, if the backup
supply fails. DESIGN CHOICE: log entry 11. -/
def execPowerLoss (backupHeld : Bool) (s : State) : Host.Outcome State Fault Refusal :=
  .next (((whenRunning s State.endTransactions).setRun .unpowered).setMarker (s.marker && backupHeld))

/-- A cold start (R105): every item at its default; the RESET input keeps its level and, asserted, holds the part in
reset (R104). The waiting commands and the model's counter stay. DESIGN CHOICE: log entry 13. -/
def State.coldStart (s : State) : State :=
  { State.reset with
    pending := s.pending
    choices := s.choices
    resetInput := s.resetInput
    run := if s.resetInput then .inColdReset else .running }

/-- A warm start at power-up (R104): the job in service at the loss of power is abandoned (R79), the key line hunts
(R170), and the rest is made at once, or at the release of a RESET input that stays asserted. -/
def State.warmPowerUp (s : State) : State :=
  let t := s.abandonJob.setKeyLine .hunt
  if t.resetInput then t.setRun .inReset else t.restart

/-- POWER_UP (R104): a valid marker makes a warm start, an invalid one a cold start. -/
def execPowerUp (s : State) : Host.Outcome State Fault Refusal :=
  .next (if s.run = .unpowered then (if s.marker then s.warmPowerUp else s.coldStart) else s)

end Sys2Proof.Machine
end

