-- ==== Sys2Proof/Machine/ShopCommands.lean ====
section
/-! DEFINITION. The shop commands: SHOP_CMD writes on the uplink port (R185). -/

namespace Sys2Proof.Machine

/-- A SHOP_CMD write: its command word and the words that follow it. -/
def shopWrite (index : Word) (hdr : Header) (command : Word) (extra : List DataWord) : PostedWrite :=
  ⟨shopCmdWindow, index, hdr, fullWord command :: extra⟩

/-- CLOSE at the batch accumulator (R152): close-pending is set, or the command is refused BUSY. -/
def closeEffect (index : Word) (hdr : Header) (s : State) : State :=
  if s.batch.closePending then s.recordRefusal .up shopCmdWindow index hdr .busy
  else s.updBatch fun b => { b with closePending := true }

/-- CLOSE (R152). -/
def execClose (stage : Stage) (index : Word) (hdr : Header) (extra : List DataWord) (s : State) :
    Host.Outcome State Fault Refusal :=
  .next (s.portWrite .up stage (shopWrite index hdr closeWord extra) (closeEffect index hdr))

/-- LINK_DOWN (R134): OUTAGE with both counts 0. -/
def execLinkDown (stage : Stage) (index : Word) (hdr : Header) (extra : List DataWord) (s : State) :
    Host.Outcome State Fault Refusal :=
  .next (s.portWrite .up stage (shopWrite index hdr linkDownWord extra) fun s => s.moveLink ⟨.outage, 0, 0⟩)

/-- LINK_UP (R134): CONTACT with both counts 0. -/
def execLinkUp (stage : Stage) (index : Word) (hdr : Header) (extra : List DataWord) (s : State) :
    Host.Outcome State Fault Refusal :=
  .next (s.portWrite .up stage (shopWrite index hdr linkUpWord extra) fun s => s.moveLink ⟨.contact, 0, 0⟩)

/-- ROLL at the key table (R165): refused BUSY while a key is RETIRING, NO_KEY without a NEXT, else made. -/
def rollEffect (index : Word) (hdr : Header) (s : State) : State :=
  if (s.keys.find .retiring).isSome then s.recordRefusal .up shopCmdWindow index hdr .busy
  else if (s.keys.find .next).isNone then s.recordRefusal .up shopCmdWindow index hdr .noKey
  else s.roll true

/-- ROLL (R165). -/
def execRoll (stage : Stage) (index : Word) (hdr : Header) (extra : List DataWord) (s : State) :
    Host.Outcome State Fault Refusal :=
  .next (s.portWrite .up stage (shopWrite index hdr rollWord extra) (rollEffect index hdr))

/-- The intake after a RESUME (R146). -/
def Intake.resumed (i : Intake) : Intake := { i with suspended := false, forged := 0, late := 0 }

/-- RESUME (R146). -/
def execResume (stage : Stage) (index : Word) (hdr : Header) (extra : List DataWord) (s : State) :
    Host.Outcome State Fault Refusal :=
  .next (s.portWrite .up stage (shopWrite index hdr resumeWord extra) fun s => s.updIntake Intake.resumed)

/-- A SHOP_CMD write that names no command: dropped BAD_COMMAND, or BAD_FORMAT without a data word (R185). A write that
names a command is none of these. -/
def shopBadEffect (index : Word) (hdr : Header) (words : List DataWord) (s : State) : State :=
  match shopCmdFault (values words) with
  | some reason => s.recordRefusal .up shopCmdWindow index hdr reason
  | none => s

/-- SHOP_CMD_MALFORMED (R185). -/
def execShopCmdMalformed (stage : Stage) (index : Word) (hdr : Header) (words : List DataWord) (s : State) :
    Host.Outcome State Fault Refusal :=
  .next (s.portWrite .up stage ⟨shopCmdWindow, index, hdr, words⟩ (shopBadEffect index hdr (shorten words)))

end Sys2Proof.Machine
end

