-- ==== Sys2Proof/Machine/StoreCommands.lean ====
section
/-! DEFINITION. The uplink's commands on the record store: OFFER and RING reads, CONFIRM writes, the offer timer
(5.6 to 5.8), and the lane port's SPILL reads and writes (chapter 6). -/

namespace Sys2Proof.Machine

/-- OFFER (R90 to R93). -/
def execOffer (index : Word) (hdr : Header) (s : State) : Host.Outcome State Fault Refusal :=
  .next (s.portRead .up ⟨.offer, index, hdr⟩)

/-- RING_READ (R94). -/
def execRingRead (port : PortId) (index : Word) (hdr : Header) (count : Nat) (s : State) :
    Host.Outcome State Fault Refusal :=
  .next (s.portRead port ⟨.ring count, index, hdr⟩)

/-! ### CONFIRM (R95 to R99) -/

/-- A CONFIRM write: command word, record number, and the words that follow. -/
def confirmWrite (index : Word) (hdr : Header) (command : Word) (number : BitVec 32) (extra : List DataWord) :
    PostedWrite :=
  ⟨confirmWindow, index, hdr, fullWord command :: numberWords number ++ extra⟩

/-- Whether an ACK confirms an entry in this state: custody other than WRITING (R96). -/
def EntryState.ackable : EntryState → Bool
  | .writing => false
  | .spilled => false
  | .confirmed => false
  | _ => true

/-- The entry after the ACK that confirms it: CONFIRMED, charge 0, awaiting flag clear (R96). The offer timer and the
prior-state note go with its old state. -/
def Entry.confirmed (e : Entry) : Entry := { e with state := .confirmed, charge := 0, awaiting := false }

/-- The spill reservation after an ACK of an entry in this state: GONE if the entry was SPILLING (R96, R115). -/
def goneReservation (e : Entry) (r : Option Reservation) : Option Reservation :=
  if e.state = .spilling then some ⟨e.number, false⟩ else r

/-- The ACK that confirms an entry (R96): charge released, reservation GONE, key table told, reclaim. -/
def confirmEntry (e : Entry) (s : State) : State :=
  let t := s.updStore fun st => st.updEntry e.number Entry.confirmed
  let t := t.release e.charge
  let t := t.updSpill fun sp => { sp with reservation := goneReservation e sp.reservation }
  (t.settleRetiring true).reclaim

/-- An ACK whose number names no custody entry: released from the spill list, or refused NOT_HELD (R97). -/
def ackSpillList (n : Nat) (index : Word) (hdr : Header) (s : State) : State :=
  match findSpill n s.spill.list with
  | some x => (s.updSpill fun sp => { sp with list := removeSpill n sp.list }).release x.charge
  | none => s.recordRefusal .up confirmWindow index hdr .notHeld

/-- An ACK at the store (R96, R97): a custody entry is confirmed, a WRITING one refused NOT_HELD, any other number
looked for on the spill list. The link monitor counts every well-formed ACK as a sign (R131). -/
def ackEffect (index : Word) (hdr : Header) (n : Nat) (s : State) : State :=
  let t :=
    match findEntry n s.store.directory with
    | some e =>
      if e.state.ackable then confirmEntry e s
      else if e.state = EntryState.writing then s.recordRefusal .up confirmWindow index hdr .notHeld
      else ackSpillList n index hdr s
    | none => ackSpillList n index hdr s
  t.linkSign

/-- ACK (R96, R97). -/
def execAck (stage : Stage) (index : Word) (hdr : Header) (number : BitVec 32) (extra : List DataWord) (s : State) :
    Host.Outcome State Fault Refusal :=
  .next (s.portWrite .up stage (confirmWrite index hdr ackWord number extra) (ackEffect index hdr number.toNat))

/-- The attempts after a failed delivery: one more, at most 15 (R98, R100). -/
def raisedAttempts (n : Nat) : Nat := min 15 (n + 1)

/-- An OFFERED entry returned by a NAK or its timer: HELD, or PARKED at the attempt limit (R98, R100). -/
def Entry.returned (e : Entry) (limit : Nat) : Entry :=
  { e with
    attempts := raisedAttempts e.attempts
    state := if limit ≤ raisedAttempts e.attempts then .parked else .held }

/-- The return of an OFFERED entry with its event, after which the campaign may look (R98, R100, R167). -/
def returnEntry (e : Entry) (s : State) : State :=
  let t := s.updStore fun st => st.updEntry e.number fun x => x.returned s.cfg.attemptLimit
  let t :=
    if s.cfg.attemptLimit ≤ raisedAttempts e.attempts then t.post .up .parked else t.post .up .offerReady
  t.campaignLook

/-- A NAK at the store (R98). -/
def nakEffect (index : Word) (hdr : Header) (n : Nat) (s : State) : State :=
  match findEntry n s.store.directory with
  | some e =>
    if e.state.isOffered then returnEntry e s else s.recordRefusal .up confirmWindow index hdr .notOffered
  | none => s.recordRefusal .up confirmWindow index hdr .notOffered

/-- NAK (R98). -/
def execNak (stage : Stage) (index : Word) (hdr : Header) (number : BitVec 32) (extra : List DataWord) (s : State) :
    Host.Outcome State Fault Refusal :=
  .next (s.portWrite .up stage (confirmWrite index hdr nakWord number extra) (nakEffect index hdr number.toNat))

/-- An UNPARK at the store (R99). -/
def unparkEffect (index : Word) (hdr : Header) (n : Nat) (s : State) : State :=
  match findEntry n s.store.directory with
  | some e =>
    if e.state = .parked then
      (s.updStore fun st => st.updEntry n fun x => { x with state := .held, attempts := 0 }).post .up .offerReady
    else s.recordRefusal .up confirmWindow index hdr .notParked
  | none => s.recordRefusal .up confirmWindow index hdr .notParked

/-- UNPARK (R99). -/
def execUnpark (stage : Stage) (index : Word) (hdr : Header) (number : BitVec 32) (extra : List DataWord) (s : State) :
    Host.Outcome State Fault Refusal :=
  .next (s.portWrite .up stage (confirmWrite index hdr unparkWord number extra) (unparkEffect index hdr number.toNat))

/-- A malformed CONFIRM write: dropped and recorded (R95). A well-formed one is no malformed write. -/
def confirmBadEffect (index : Word) (hdr : Header) (words : List DataWord) (s : State) : State :=
  match confirmFault (values words) with
  | some reason => s.recordRefusal .up confirmWindow index hdr reason
  | none => s

/-- CONFIRM_MALFORMED (R95). -/
def execConfirmMalformed (stage : Stage) (index : Word) (hdr : Header) (words : List DataWord) (s : State) :
    Host.Outcome State Fault Refusal :=
  .next (s.portWrite .up stage ⟨confirmWindow, index, hdr, words⟩ (confirmBadEffect index hdr (shorten words)))

/-- The expiry of an OFFERED entry's offer timer (R100). -/
def offerTimerEffect (n : Nat) (s : State) : State :=
  match findEntry n s.store.directory with
  | some e => if e.state.isOffered then returnEntry e s else s
  | none => s

/-- OFFER_TIMER_EXPIRY (R100). -/
def execOfferTimerExpiry (number : BitVec 32) (s : State) : Host.Outcome State Fault Refusal :=
  .next (whenRunning s (offerTimerEffect number.toNat))

/-! ### SPILL (R108 to R114) -/

/-- SPILL (R108 to R111). -/
def execSpill (index : Word) (hdr : Header) (s : State) : Host.Outcome State Fault Refusal :=
  .next (s.portRead .lp ⟨.spill, index, hdr⟩)

/-- A SPILL write: command word, record number, and the words that follow. -/
def spillWrite (index : Word) (hdr : Header) (command : Word) (number : BitVec 32) (extra : List DataWord) :
    PostedWrite :=
  ⟨spillWindow, index, hdr, fullWord command :: numberWords number ++ extra⟩

/-- The refusal of a well-formed spill command that names no LIVE reservation: GONE, which removes the reservation, or
NOT_SPILLING (R112). -/
def refuseSpill (index : Word) (hdr : Header) (n : Nat) (s : State) : State :=
  match s.spill.reservation with
  | some r =>
    if r.number = n then
      (s.updSpill fun sp => { sp with reservation := none }).recordRefusal .lp spillWindow index hdr .gone
    else s.recordRefusal .lp spillWindow index hdr .notSpilling
  | none => s.recordRefusal .lp spillWindow index hdr .notSpilling

/-- Whether a record number is that of the LIVE reservation (R112). -/
def State.reserved (s : State) (n : Nat) : Bool :=
  match s.spill.reservation with
  | some r => r.live && decide (r.number = n)
  | none => false

/-- The spill list after SPILL_DONE of an entry: its charge, if any, is on the list (R113). Of an entry without a charge
the list is as it was, also where it holds that record number already. DESIGN CHOICE: log entry 35. -/
def listAfterSpill (e : Entry) (l : List SpillItem) : List SpillItem :=
  if 0 < e.charge then addSpill ⟨e.number, e.charge, e.batch⟩ l else l

/-- SPILL_DONE on the LIVE reservation (R113): SPILLED, the charge moved, key table told, reclaim. -/
def spillEntry (e : Entry) (s : State) : State :=
  let t := s.updStore fun st => st.updEntry e.number fun x => { x with state := .spilled, charge := 0 }
  let t := t.updSpill fun sp => { reservation := none, list := listAfterSpill e sp.list }
  (t.settleRetiring true).reclaim

/-- SPILL_DONE at the store (R112, R113). -/
def spillDoneEffect (index : Word) (hdr : Header) (n : Nat) (s : State) : State :=
  if s.reserved n then
    match findEntry n s.store.directory with
    | some e => if e.state = .spilling then spillEntry e s else s.updSpill fun sp => { sp with reservation := none }
    | none => s.updSpill fun sp => { sp with reservation := none }
  else refuseSpill index hdr n s

/-- SPILL_DONE (R112, R113). -/
def execSpillDone (stage : Stage) (index : Word) (hdr : Header) (number : BitVec 32) (extra : List DataWord)
    (s : State) : Host.Outcome State Fault Refusal :=
  .next (s.portWrite .lp stage (spillWrite index hdr spillDoneWord number extra)
    (spillDoneEffect index hdr number.toNat))

/-- SPILL_CANCEL at the store (R112, R114). -/
def spillCancelEffect (index : Word) (hdr : Header) (n : Nat) (s : State) : State :=
  if s.reserved n then
    let t := s.updSpill fun sp => { sp with reservation := none }
    let t := t.updStore fun st =>
      st.updEntry n fun x => { x with state := if x.state = .spilling then .held else x.state }
    (t.post .up .offerReady).campaignLook
  else refuseSpill index hdr n s

/-- SPILL_CANCEL (R112, R114). -/
def execSpillCancel (stage : Stage) (index : Word) (hdr : Header) (number : BitVec 32) (extra : List DataWord)
    (s : State) : Host.Outcome State Fault Refusal :=
  .next (s.portWrite .lp stage (spillWrite index hdr spillCancelWord number extra)
    (spillCancelEffect index hdr number.toNat))

/-- A SPILL write that is malformed, or names no LIVE reservation (R112). One that names it is no refused command.
DESIGN CHOICE: log entry 26. -/
def spillBadEffect (index : Word) (hdr : Header) (words : List DataWord) (s : State) : State :=
  match spillFault (values words) with
  | some reason => s.recordRefusal .lp spillWindow index hdr reason
  | none =>
    if s.reserved (commandNumber (values words)) then s else refuseSpill index hdr (commandNumber (values words)) s

/-- SPILL_COMMAND_REFUSED (R112). -/
def execSpillCommandRefused (stage : Stage) (index : Word) (hdr : Header) (words : List DataWord) (s : State) :
    Host.Outcome State Fault Refusal :=
  .next (s.portWrite .lp stage ⟨spillWindow, index, hdr, words⟩ (spillBadEffect index hdr (shorten words)))

end Sys2Proof.Machine
end

