-- ==== Sys2Proof/Machine/Takes.lean ====
section
/-! DEFINITION. The engine's takes (4.3 to 4.5). A take is made only when it is due: the engine IDLE and the arbiter
choosing a request of that kind (R61, R63). -/

namespace Sys2Proof.Machine

/-! ### WRAP (R67, R68, R11, R12) -/

/-- The last result of a lane whose WRAP take is refused (R11). -/
def wrapRefusalResult : RefuseReason → LaneResult
  | .storeFull => .storeFull
  | .keySpent => .keySpent
  | .noKey => .noKey
  | r => .offlineRefused r

/-- The refusal of a WRAP at its take: the lane returns to ASSEMBLING with its buffer (R11, R66). -/
def refuseWrap (lane : Fin 16) (r : RefuseReason) (s : State) : State :=
  (s.noteStoreFull r).laneOutcome lane fun l => { l with mode := .assembling, result := wrapRefusalResult r }

/-- The directory entry of an accepted WRAP (R68); number and first slot are given at the allocation. -/
def wrapEntry (lane : Fin 16) (r : WrapRequest) (laneSeq batch epoch charge : Nat) : Entry where
  number := 0
  lane := lane
  laneSeq := laneSeq
  kind := r.kind.stored
  offline := decide (r.mode = .offline)
  fallback := r.fallback
  batch := batch
  epoch := epoch
  firstSlot := 0
  slots := r.slots
  length := 0
  state := .writing
  charge := charge
  awaiting := false
  attempts := 0

/-- The store's part of an accepted take: the entry is allocated, its charge is on the meter, the ACTIVE key's use is
counted and the high marks are evaluated (R68, R84, R119, R162). -/
def State.claim (s : State) (e : Entry) : State :=
  (((s.updStore fun st => st.allocate e).setMeter (s.meter + e.charge)).updKeys KeyTable.countUse).evalHigh

/-- The acceptance of a WRAP at its take (R12, R68). -/
def acceptWrap (lane : Fin 16) (r : WrapRequest) (w : WrapKey) (charge : Nat) (s : State) : State :=
  let l := s.lanes[lane]
  let t := s.claim (wrapEntry lane r l.seq s.batch.number w.epoch charge)
  let t := t.updLane lane fun x => { x.clearBuffer with mode := .wrapping, seq := succSeq x.seq }
  let t := t.updEngine fun e =>
    { e with job := some (.wrap ⟨lane, r, l.buffer, w.key, w.epoch, s.store.counter, l.seq⟩) }
  t.afterUse

/-- The take of a lane's WRAP request, the pointers moved before (R67, R68). -/
def wrapTake (lane : Fin 16) (s : State) : State :=
  match s.lanes[lane].mode with
  | .queued r =>
    match s.wrapChecks r, s.keys.active with
    | .error x, _ => refuseWrap lane x s
    | .ok charge, some w => acceptWrap lane r w charge s
    | .ok _, none => s
  | _ => s

/-- TAKE_WRAP (R67, R68). DESIGN CHOICE: log entry 6. -/
def execTakeWrap (s : State) : Host.Outcome State Fault Refusal :=
  .next (whenRunning s fun s =>
    match s.due with
    | some (.wrapA lane) => wrapTake lane (s.updEngine fun e => e.afterA lane)
    | some (.wrapB lane) => wrapTake lane (s.afterB lane)
    | _ => s)

/-! ### ADVISE (R69, R18) -/

/-- The refusal of an ADVISE at its take: FALLBACK ends with OFFLINE_REFUSED (R18, R66, R69).
DEDUCED: log entry 22. -/
def refuseAdvise (lane : Fin 16) (r : RefuseReason) (s : State) : State :=
  (s.noteStoreFull r).laneOutcome lane fun l => { l with mode := .idle, result := .offlineRefused r }

/-- The directory entry of an accepted ADVISE (R69). -/
def adviceEntry (lane : Fin 16) (laneSeq batch epoch charge : Nat) : Entry where
  number := 0
  lane := lane
  laneSeq := laneSeq
  kind := .advice
  offline := true
  fallback := false
  batch := batch
  epoch := epoch
  firstSlot := 0
  slots := 2
  length := 0
  state := .writing
  charge := charge
  awaiting := false
  attempts := 0

/-- The acceptance of an ADVISE at its take (R69, R18): the lane stays in FALLBACK. -/
def acceptAdvise (lane : Fin 16) (a : AdviceRequest) (w : WrapKey) (charge : Nat) (s : State) : State :=
  let l := s.lanes[lane]
  let t := s.claim (adviceEntry lane l.seq s.batch.number w.epoch charge)
  let t := t.updLane lane fun x => { x with mode := .fallback { a with taken := true }, seq := succSeq x.seq }
  let t := t.updEngine fun e =>
    { e with
      job := some (.advise ⟨lane, a.generation, a.origin, a.amount, a.cardClass, charge, w.key, w.epoch,
        s.store.counter, l.seq⟩) }
  t.afterUse

/-- The take of a lane's ADVISE request, the pointer moved before (R69). -/
def adviseTake (lane : Fin 16) (s : State) : State :=
  match s.lanes[lane].mode with
  | .fallback a =>
    match s.adviseChecks a, s.keys.active with
    | .error x, _ => refuseAdvise lane x s
    | .ok charge, some w => acceptAdvise lane a w charge s
    | .ok _, none => s
  | _ => s

/-- TAKE_ADVISE (R69). -/
def execTakeAdvise (s : State) : Host.Outcome State Fault Refusal :=
  .next (whenRunning s fun s =>
    match s.due with
    | some (.advise lane) => adviseTake lane (s.afterB lane)
    | _ => s)

/-! ### REWRAP (R70) -/

/-- Whether a REWRAP target qualifies, and with which prior state (R70). -/
def rewrapPrior (e : Entry) (retiringEpoch : Nat) : Option Prior :=
  if e.epoch ≠ retiringEpoch then none
  else
    match e.state with
    | .held => some .held
    | .parked => some .parked
    | _ => none

/-- The acceptance of a REWRAP at its take (R70): entry REWRAPPING, a key use, the working copy. -/
def acceptRewrap (e : Entry) (prior : Prior) (retiring active : WrapKey) (s : State) : State :=
  let content := Memory.readRun s.store.ring (Config.slotBytes * e.firstSlot) (Config.slotBytes * e.slots)
  let t := s.updStore fun st => st.updEntry e.number fun x => { x with state := .rewrapping prior }
  let t := t.updKeys KeyTable.countUse
  let t := t.updEngine fun g =>
    { g with job := some (.rewrap ⟨e.number, content, retiring.key, active.key, active.epoch⟩) }
  t.campaignLook.afterUse

/-- The take of the campaign's REWRAP request (R70, R65, R167): the request leaves the pending set and the share
counter is 0, whether the target then qualifies or the request is dropped; the campaign looks again. -/
def rewrapTake (target : Nat) (s : State) : State :=
  let t := (s.updKeys fun k => { k with campaign := none }).updEngine fun e => { e with share := 0 }
  match findEntry target t.store.directory, t.keys.find .retiring, t.keys.active with
  | some e, some old, some new =>
    match rewrapPrior e old.epoch with
    | some prior => acceptRewrap e prior old new t
    | none => t.campaignLook
  | _, _, _ => t.campaignLook

/-- TAKE_REWRAP (R70). -/
def execTakeRewrap (s : State) : Host.Outcome State Fault Refusal :=
  .next (whenRunning s fun s =>
    match s.due, s.keys.campaign with
    | some .rewrap, some target => rewrapTake target s
    | _, _ => s)

/-! ### CLOSE (R71, R153) -/

/-- The directory entry of a SUMMARY (R71). -/
def summaryEntry (shopSeq batch epoch : Nat) : Entry where
  number := 0
  lane := 16
  laneSeq := shopSeq
  kind := .summary
  offline := true
  fallback := false
  batch := batch
  epoch := epoch
  firstSlot := 0
  slots := 7
  length := 0
  state := .writing
  charge := 0
  awaiting := false
  attempts := 0

/-- The snapshot of a CLOSE take whose summary gets the given record number (R153). -/
def Batch.snapshot (b : Batch) (summary : Nat) : Snapshot :=
  ⟨b.classes, b.recordCount, b.number, b.first, predRecord summary, b.summaryLost⟩

/-- The batch accumulator after the cut-over (R153). -/
def Batch.cutOver (b : Batch) (summary : Nat) : Batch where
  number := succBatch b.number
  classes := Vector.replicate 8 ClassTotals.zero
  recordCount := 0
  first := succRecord summary
  summaryLost := false
  closePending := false
  shopSeq := succSeq b.shopSeq

/-- The take of the CLOSE request, which is never refused (R71, R153, R146). -/
def closeTake (w : WrapKey) (s : State) : State :=
  let n := s.store.counter
  let t := s.claim (summaryEntry s.batch.shopSeq s.batch.number w.epoch)
  let t := t.updEngine fun e =>
    { e with job := some (.close ⟨s.batch.snapshot n, w.key, w.epoch, n, s.batch.shopSeq⟩) }
  let t := t.updBatch fun b => b.cutOver n
  let t := t.updIntake fun i => { i with forged := 0, late := 0 }
  t.afterUse

/-- TAKE_CLOSE (R71, R153). -/
def execTakeClose (s : State) : Host.Outcome State Fault Refusal :=
  .next (whenRunning s fun s =>
    match s.due, s.keys.active with
    | some .close, some w => closeTake w (s.afterB 16)
    | _, _ => s)

/-! ### OPEN (R72) -/

/-- The take of the oldest OPEN request: its record and the response key go to the working copy, and a held INTAKE
write may claim the freed place (R72, R140). -/
def openTake (record : List Byte) (rest : List (List Byte)) (s : State) : State :=
  let t := s.updIntake fun i => { i with queue := rest }
  let t := t.updEngine fun e => { e with job := some (.opening ⟨record, s.keys.response⟩) }
  t.resumePort .up

/-- TAKE_OPEN (R72). -/
def execTakeOpen (s : State) : Host.Outcome State Fault Refusal :=
  .next (whenRunning s fun s =>
    match s.due, s.intake.queue with
    | some .opening, record :: rest => openTake record rest s
    | _, _ => s)

end Sys2Proof.Machine
end

