-- ==== Sys2Proof/Machine/Dispatch.lean ====
section
/-! DEFINITION. The meaning of each command: one arm for each constructor of `Instr`. -/

namespace Sys2Proof.Machine

/-- The effect of a command on everything but the queue. -/
def exec (i : Instr) (s : State) : Host.Outcome State Fault Refusal :=
  match i with
  | .laneBufWrite stage lane hdr words => Sys2Proof.Machine.execLaneBufWrite stage lane hdr words s
  | .wrap stage lane hdr extra => Sys2Proof.Machine.execWrap stage lane hdr extra s
  | .abandon stage lane hdr extra => Sys2Proof.Machine.execAbandon stage lane hdr extra s
  | .resetLane stage lane hdr extra => Sys2Proof.Machine.execResetLane stage lane hdr extra s
  | .laneCmdBadCommand stage lane hdr words => Sys2Proof.Machine.execLaneCmdBadCommand stage lane hdr words s
  | .laneCmdRead lane hdr => Sys2Proof.Machine.execLaneCmdRead lane hdr s
  | .laneRspRead lane hdr => Sys2Proof.Machine.execLaneRspRead lane hdr s
  | .onlineTimerExpiry lane => Sys2Proof.Machine.execOnlineTimerExpiry lane s
  | .takeWrap => Sys2Proof.Machine.execTakeWrap s
  | .takeAdvise => Sys2Proof.Machine.execTakeAdvise s
  | .takeRewrap => Sys2Proof.Machine.execTakeRewrap s
  | .takeClose => Sys2Proof.Machine.execTakeClose s
  | .takeOpen => Sys2Proof.Machine.execTakeOpen s
  | .wrapCompletion => Sys2Proof.Machine.execWrapCompletion s
  | .adviseCompletion => Sys2Proof.Machine.execAdviseCompletion s
  | .closeCompletion => Sys2Proof.Machine.execCloseCompletion s
  | .rewrapCompletion => Sys2Proof.Machine.execRewrapCompletion s
  | .openCompletion => Sys2Proof.Machine.execOpenCompletion s
  | .offer index hdr => Sys2Proof.Machine.execOffer index hdr s
  | .ringRead port index hdr count => Sys2Proof.Machine.execRingRead port index hdr count s
  | .ack stage index hdr number extra => Sys2Proof.Machine.execAck stage index hdr number extra s
  | .nak stage index hdr number extra => Sys2Proof.Machine.execNak stage index hdr number extra s
  | .unpark stage index hdr number extra => Sys2Proof.Machine.execUnpark stage index hdr number extra s
  | .confirmMalformed stage index hdr words => Sys2Proof.Machine.execConfirmMalformed stage index hdr words s
  | .offerTimerExpiry number => Sys2Proof.Machine.execOfferTimerExpiry number s
  | .spill index hdr => Sys2Proof.Machine.execSpill index hdr s
  | .spillDone stage index hdr number extra => Sys2Proof.Machine.execSpillDone stage index hdr number extra s
  | .spillCancel stage index hdr number extra => Sys2Proof.Machine.execSpillCancel stage index hdr number extra s
  | .spillCommandRefused stage index hdr words => Sys2Proof.Machine.execSpillCommandRefused stage index hdr words s
  | .intakeClaim index burst => Sys2Proof.Machine.execIntakeClaim index burst s
  | .intakeWrite words => Sys2Proof.Machine.execIntakeWrite words s
  | .close stage index hdr extra => Sys2Proof.Machine.execClose stage index hdr extra s
  | .linkDown stage index hdr extra => Sys2Proof.Machine.execLinkDown stage index hdr extra s
  | .linkUp stage index hdr extra => Sys2Proof.Machine.execLinkUp stage index hdr extra s
  | .roll stage index hdr extra => Sys2Proof.Machine.execRoll stage index hdr extra s
  | .resume stage index hdr extra => Sys2Proof.Machine.execResume stage index hdr extra s
  | .shopCmdMalformed stage index hdr words => Sys2Proof.Machine.execShopCmdMalformed stage index hdr words s
  | .watermarksWrite stage index hdr words => Sys2Proof.Machine.execWatermarksWrite stage index hdr words s
  | .useLimitWrite stage index hdr words => Sys2Proof.Machine.execUseLimitWrite stage index hdr words s
  | .eventStatusClear stage port hdr words => Sys2Proof.Machine.execEventStatusClear stage port hdr words s
  | .eventMaskWrite stage port hdr words => Sys2Proof.Machine.execEventMaskWrite stage port hdr words s
  | .writeStatusClear stage port hdr words => Sys2Proof.Machine.execWriteStatusClear stage port hdr words s
  | .configWrite stage item index hdr words => Sys2Proof.Machine.execConfigWrite stage item index hdr words s
  | .headerRefusal port dir control code index hdr count => Sys2Proof.Machine.execHeaderRefusal port dir control code index hdr count s
  | .holdLimitExpiry port count => Sys2Proof.Machine.execHoldLimitExpiry port count s
  | .loadTransport key check => Sys2Proof.Machine.execLoadTransport key check s
  | .loadKey role epoch enciphered check => Sys2Proof.Machine.execLoadKey role epoch enciphered check s
  | .discardNext => Sys2Proof.Machine.execDiscardNext s
  | .setPolicy entries => Sys2Proof.Machine.execSetPolicy entries s
  | .setShop identity => Sys2Proof.Machine.execSetShop identity s
  | .query selector index => Sys2Proof.Machine.execQuery selector index s
  | .badFrame bytes => Sys2Proof.Machine.execBadFrame bytes s
  | .keyLineGap => Sys2Proof.Machine.execKeyLineGap s
  | .keyLineByteFault => Sys2Proof.Machine.execKeyLineByteFault s
  | .keyLineReplyEnd => Sys2Proof.Machine.execKeyLineReplyEnd s
  | .tamper => Sys2Proof.Machine.execTamper s
  | .resetAssertion => Sys2Proof.Machine.execResetAssertion s
  | .resetRelease => Sys2Proof.Machine.execResetRelease s
  | .powerLoss backupHeld => Sys2Proof.Machine.execPowerLoss backupHeld s
  | .powerUp => Sys2Proof.Machine.execPowerUp s
  | .syncByte => Sys2Proof.Machine.execSyncByte s
  | .readBurstTruncation port => Sys2Proof.Machine.execReadBurstTruncation port s

end Sys2Proof.Machine
end

