-- ==== Sys2Proof/Safety.lean ====
section
/-! DEFINITION. The terms in which claims about the CW410 are stated: when a write is applied, when a read is answered,
what a recorded refusal leaves, and the invariants that the manual gives. -/

namespace Sys2Proof.Machine

/-! ### Transactions -/

/-- The posted write that a command stands for, with its port and its moment (R181). -/
def writeOf : Instr → Option (PortId × Stage × PostedWrite)
  | .laneBufWrite stage lane hdr words => some (.lp, stage, ⟨laneBufWindow, laneIndex lane, hdr, words⟩)
  | .wrap stage lane hdr extra => some (.lp, stage, laneCmdWrite lane hdr wrapWord extra)
  | .abandon stage lane hdr extra => some (.lp, stage, laneCmdWrite lane hdr abandonWord extra)
  | .resetLane stage lane hdr extra => some (.lp, stage, laneCmdWrite lane hdr resetLaneWord extra)
  | .laneCmdBadCommand stage lane hdr words => some (.lp, stage, ⟨laneCmdWindow, laneIndex lane, hdr, words⟩)
  | .ack stage index hdr number extra => some (.up, stage, confirmWrite index hdr ackWord number extra)
  | .nak stage index hdr number extra => some (.up, stage, confirmWrite index hdr nakWord number extra)
  | .unpark stage index hdr number extra => some (.up, stage, confirmWrite index hdr unparkWord number extra)
  | .confirmMalformed stage index hdr words => some (.up, stage, ⟨confirmWindow, index, hdr, words⟩)
  | .spillDone stage index hdr number extra => some (.lp, stage, spillWrite index hdr spillDoneWord number extra)
  | .spillCancel stage index hdr number extra => some (.lp, stage, spillWrite index hdr spillCancelWord number extra)
  | .spillCommandRefused stage index hdr words => some (.lp, stage, ⟨spillWindow, index, hdr, words⟩)
  | .close stage index hdr extra => some (.up, stage, shopWrite index hdr closeWord extra)
  | .linkDown stage index hdr extra => some (.up, stage, shopWrite index hdr linkDownWord extra)
  | .linkUp stage index hdr extra => some (.up, stage, shopWrite index hdr linkUpWord extra)
  | .roll stage index hdr extra => some (.up, stage, shopWrite index hdr rollWord extra)
  | .resume stage index hdr extra => some (.up, stage, shopWrite index hdr resumeWord extra)
  | .shopCmdMalformed stage index hdr words => some (.up, stage, ⟨shopCmdWindow, index, hdr, words⟩)
  | .watermarksWrite stage index hdr words => some (.up, stage, ⟨watermarksItem, index, hdr, words⟩)
  | .useLimitWrite stage index hdr words => some (.up, stage, ⟨useLimitItem, index, hdr, words⟩)
  | .eventStatusClear stage port hdr words => some (port, stage, ⟨eventStatusItem, portIndex port, hdr, words⟩)
  | .eventMaskWrite stage port hdr words => some (port, stage, ⟨eventMaskItem, portIndex port, hdr, words⟩)
  | .writeStatusClear stage port hdr words => some (port, stage, ⟨writeStatusItem, portIndex port, hdr, words⟩)
  | .configWrite stage item index hdr words => some (.up, stage, ⟨configTarget item, configIndex item index, hdr, words⟩)
  | .laneCmdRead _ _ | .laneRspRead _ _ | .onlineTimerExpiry _ | .takeWrap | .takeAdvise | .takeRewrap | .takeClose
  | .takeOpen | .wrapCompletion | .adviseCompletion | .closeCompletion | .rewrapCompletion | .openCompletion
  | .offer _ _ | .ringRead _ _ _ _ | .offerTimerExpiry _ | .spill _ _ | .intakeClaim _ _ | .intakeWrite _
  | .headerRefusal _ _ _ _ _ _ _ | .holdLimitExpiry _ _ | .loadTransport _ _ | .loadKey _ _ _ _ | .discardNext
  | .setPolicy _ | .setShop _ | .query _ _ | .badFrame _ | .keyLineGap | .keyLineByteFault | .keyLineReplyEnd
  | .tamper | .resetAssertion | .resetRelease | .powerLoss _ | .powerUp | .syncByte | .readBurstTruncation _ => none

/-- The read that a command stands for, with its port (R178); that of a control item is an admitted header (R180;
DESIGN CHOICE, log entry 10). -/
def readOf : Instr → Option (PortId × ReadRequest)
  | .laneCmdRead lane hdr => some (.lp, ⟨.laneCmd lane, laneIndex lane, hdr⟩)
  | .laneRspRead lane hdr => some (.lp, ⟨.laneRsp lane, laneIndex lane, hdr⟩)
  | .offer index hdr => some (.up, ⟨.offer, index, hdr⟩)
  | .ringRead port index hdr count => some (port, ⟨.ring count, index, hdr⟩)
  | .spill index hdr => some (.lp, ⟨.spill, index, hdr⟩)
  | .headerRefusal port dir control code index hdr count =>
    if dir = .read ∧ control = true ∧ decoderRefusal port dir control code index = none then
      some (port, ⟨.control code count, index, hdr⟩)
    else none
  | .laneBufWrite _ _ _ _ | .wrap _ _ _ _ | .abandon _ _ _ _ | .resetLane _ _ _ _ | .laneCmdBadCommand _ _ _ _
  | .onlineTimerExpiry _ | .takeWrap | .takeAdvise | .takeRewrap | .takeClose | .takeOpen | .wrapCompletion
  | .adviseCompletion | .closeCompletion | .rewrapCompletion | .openCompletion | .ack _ _ _ _ _ | .nak _ _ _ _ _
  | .unpark _ _ _ _ _ | .confirmMalformed _ _ _ _ | .offerTimerExpiry _ | .spillDone _ _ _ _ _
  | .spillCancel _ _ _ _ _ | .spillCommandRefused _ _ _ _ | .intakeClaim _ _ | .intakeWrite _ | .close _ _ _ _
  | .linkDown _ _ _ _ | .linkUp _ _ _ _ | .roll _ _ _ _ | .resume _ _ _ _ | .shopCmdMalformed _ _ _ _
  | .watermarksWrite _ _ _ _ | .useLimitWrite _ _ _ _ | .eventStatusClear _ _ _ _ | .eventMaskWrite _ _ _ _
  | .writeStatusClear _ _ _ _ | .configWrite _ _ _ _ _ | .holdLimitExpiry _ _
  | .loadTransport _ _ | .loadKey _ _ _ _ | .discardNext | .setPolicy _ | .setShop _ | .query _ _ | .badFrame _
  | .keyLineGap | .keyLineByteFault | .keyLineReplyEnd | .tamper | .resetAssertion | .resetRelease | .powerLoss _
  | .powerUp | .syncByte | .readBurstTruncation _ => none

/-- A running part applies a write of at most 64 data words on a port that holds nothing: the write is alone (it came
straight to the front) and `s'` is `s` but for an earlier read's transaction being over, or it is at the front of the
queue and `s'` is `s` with its place freed (R181). The write's effect is then made on `s'` (DESIGN CHOICE: log entry
3). -/
def State.Applies (s : State) (p : PortId) (w : PostedWrite) (s' : State) : Prop :=
  s.run = .running ∧ (s.port p).held = none ∧ w.words.length ≤ Config.burstLimit ∧
    (((s.port p).posted = [] ∧ s' = s.endAnswer p) ∨ ∃ rest, (s.port p).posted = w :: rest ∧ s' = s.setPosted p rest)

/-- A running part whose port holds nothing and has no posted write: a read reaches its block at once (R181). -/
def State.Open (s : State) (p : PortId) : Prop :=
  s.run = .running ∧ (s.port p).held = none ∧ (s.port p).posted = []

/-- A port after a recorded refusal (R184): the last refusal, the count up to 255 and the event of the reason. -/
def Port.refused (q : Port) (r : RecordedRefusal) : Port :=
  { q with
    lastRefusal := some r
    refusalCount := min 255 (q.refusalCount + 1)
    events := q.events ||| r.reason.event.bit }

/-- The recorded refusal of a transaction with this target, index and header (R184). -/
def refusal (target : Target) (index : Word) (hdr : Header) (reason : Reason) : RecordedRefusal :=
  ⟨target, hdr.form, index, hdr.tag, reason⟩

/-- A port that sends a read answer (R184). -/
def Port.answered (q : Port) (status : ReadStatus) (hdr : Header) (words : List Word) : Port :=
  { q with answer := some ⟨status, hdr.tag, words⟩, sending := true }

/-- A port on which an event has been posted (R186). -/
def Port.signalled (q : Port) (e : Event) : Port := { q with events := q.events ||| e.bit }

/-- From `s` to `t` a port's transaction has been ended (R188): a held read is answered ABORTED, and of an answer that
was being sent some first words have crossed and the rest read as zero. -/
def State.AnswerEnded (s t : State) (p : PortId) : Prop :=
  (t.port p).sending = false ∧
    (∀ r limit b, (s.port p).held = some ⟨.read r, limit, b⟩ →
      (t.port p).answer = some ⟨.aborted, r.hdr.tag, []⟩) ∧
    ((s.port p).held = none →
      ((s.port p).sending = false → (t.port p).answer = (s.port p).answer) ∧
      (∀ a, (s.port p).sending = true → (s.port p).answer = some a →
        ∃ sent, (t.port p).answer = some { a with words := a.words.take sent }))

/-! ### Takes -/

/-- The ACTIVE key `w` has uses left, and the store has the free slots and entries that a take needs (R66, R67). -/
def State.KeyAndRoom (s : State) (w : WrapKey) (slots entries : Nat) : Prop :=
  s.keys.active = some w ∧ w.uses < s.keys.useLimit ∧ slots ≤ s.store.freeSlots ∧ entries ≤ s.store.freeEntries

/-- The exposure unit accepts an amount of a card class with a charge (R49): the class's floor is not 0 and covers the
amount, and the meter with the charge, ceil(amount × weight / 8), stays within the ceiling. -/
def State.ExposureAccepts (s : State) (cardClass : Fin 8) (amount charge : Nat) : Prop :=
  0 < s.cfg.risk[cardClass].floor ∧ amount ≤ s.cfg.risk[cardClass].floor ∧
    charge = (amount * s.cfg.risk[cardClass].weight + 7) / 8 ∧ s.meter + charge ≤ s.cfg.ceiling

/-- Why a lane job is refused at its take, in the order of R67: key, room, and, where a decision is asked for,
exposure. -/
def State.RefusedFor (s : State) (slots entries : Nat) (decision : Prop) (cardClass : Fin 8) (amount : Nat) :
    RefuseReason → Prop
  | .noKey => s.keys.active = none
  | .keySpent => ∃ w, s.keys.active = some w ∧ s.keys.useLimit ≤ w.uses
  | .storeFull =>
    ∃ w, s.keys.active = some w ∧ w.uses < s.keys.useLimit ∧
      (s.store.freeSlots < slots ∨ s.store.freeEntries < entries)
  | .floor =>
    ∃ w, s.KeyAndRoom w slots entries ∧ decision ∧
      (s.cfg.risk[cardClass].floor = 0 ∨ s.cfg.risk[cardClass].floor < amount)
  | .ceiling =>
    ∃ w, s.KeyAndRoom w slots entries ∧ decision ∧ 0 < s.cfg.risk[cardClass].floor ∧
      amount ≤ s.cfg.risk[cardClass].floor ∧
      s.cfg.ceiling < s.meter + (amount * s.cfg.risk[cardClass].weight + 7) / 8

/-- The engine after a class B take at a position, before any job is in service (R64, R65). -/
def State.engineAfterB (s : State) (pos : Nat) : Engine :=
  { s.engine with
    bPtr := (pos + 1) % 17
    share := if s.keys.campaign = none then s.engine.share else min s.cfg.rewrapShare (s.engine.share + 1) }

/-- The key in slot `i` has been used once more: its count is one higher, its key and epoch are the same (R162). -/
def KeyTable.UsedOnce (k k' : KeyTable) (i : Fin 3) (w : WrapKey) : Prop :=
  k.slots[i] = some w ∧ ∃ w', k'.slots[i] = some w' ∧ w'.uses = w.uses + 1 ∧ w'.key = w.key ∧ w'.epoch = w.epoch

/-- `k'` is `k` with the use of the key of an epoch set back by one (R162); if that ends the ACTIVE key's spending, the
pending-roll flag is clear (R164). -/
def KeyTable.UseSetBack (k k' : KeyTable) (epoch : Nat) : Prop :=
  k' = { k with
    slots := k.slots.map fun o => o.map fun w => if w.epoch = epoch then { w with uses := w.uses - 1 } else w
    pendingRoll := k'.pendingRoll } ∧
  k'.pendingRoll = (if k.activeSpent = true ∧ k'.activeSpent = false then false else k.pendingRoll)

/-- The key table `k` with a use of its ACTIVE key `w` counted, the wear flag SET at the wear point (R162, R163). -/
def KeyTable.counted (k : KeyTable) (w : WrapKey) : KeyTable :=
  let worn := decide (k.useLimit - k.useLimit / 16 ≤ w.uses + 1) && !w.wear
  { k with slots := k.slots.map fun o => o.map fun v =>
      if v.role = .active then { v with uses := v.uses + 1, wear := v.wear || worn } else v }

/-- The campaign's next target: the oldest HELD or PARKED entry of an epoch (R167). -/
def campaignTarget (epoch : Nat) (d : List Entry) : Option Nat :=
  (d.find? fun e => e.epoch == epoch && decide (e.state = .held ∨ e.state = .parked)).map Entry.number

/-- The campaign's request once it has looked over the directory `d` (R167): the one that was pending, or else, while a key
is RETIRING, the next target of that key's epoch. -/
def KeyTable.lookedOver (k : KeyTable) (d : List Entry) : Option Nat :=
  match k.campaign, k.find .retiring with
  | some n, _ => some n
  | none, some w => campaignTarget w.epoch d
  | none, none => none

/-- The key table without its RETIRING key, as an erase leaves it (R166). -/
def KeyTable.erased (k : KeyTable) : KeyTable :=
  { k with
    slots := k.slots.map fun o => o.filter fun v => decide (v.role ≠ .retiring)
    retiring := 0
    campaign := none }

/-- The key table with the roles of a roll (R165): the NEXT key is ACTIVE with no uses and no wear flag, the ACTIVE key
is RETIRING, and no roll is pending. -/
def KeyTable.turned (k : KeyTable) : KeyTable :=
  { k with
    slots := k.slots.map fun o => o.map fun v =>
      match v.role with
      | .next => { v with role := .active, uses := 0, wear := false }
      | .active => { v with role := .retiring }
      | .retiring => v
    pendingRoll := false }

/-- From `k`, which has no RETIRING key, a roll over the directory `d` makes `k'` (R165): the roles turn, and the key
that was ACTIVE begins its retiring count and the campaign looks, or it is erased at once where that count is 0. -/
def KeyTable.Rolled (k k' : KeyTable) (d : List Entry) : Prop :=
  (k.active = none → k' = k.turned) ∧
    ∀ w, k.active = some w →
      (custodyCount w.epoch d = 0 → k' = k.turned.erased) ∧
      (0 < custodyCount w.epoch d → k' = { k.turned with
        retiring := custodyCount w.epoch d
        campaign := match k.campaign with
          | some n => some n
          | none => campaignTarget w.epoch d })

/-- What a take that uses the ACTIVE key `w` makes of the key table `k`, with its use counted, over the directory `d`
(R164): while the key has uses left, no more; once it is spent, nothing without a NEXT key, the pending-roll flag while
a key is RETIRING, and else a roll at once. -/
def KeyTable.AfterUse (k k' : KeyTable) (w : WrapKey) (d : List Entry) : Prop :=
  (w.uses + 1 < k.useLimit ∨ k.find .next = none → k' = k.counted w) ∧
    (k.useLimit ≤ w.uses + 1 → k.find .next ≠ none →
      (k.find .retiring ≠ none → k' = { k.counted w with pendingRoll := true }) ∧
      (k.find .retiring = none → (k.counted w).Rolled k' d))

/-- From `s` to `t` a take has used the ACTIVE key `w` (R162 to R164), leaving the campaign request as given (R167): the
key table, the high-mark flag and all events, STORE_HIGH on both ports where an allocation reaches a high mark while the
flag is ARMED (R89). -/
def State.KeyUsed (s t : State) (w : WrapKey) (campaign : Option Nat) (allocates : Bool) : Prop :=
  let k := s.keys
  let worn := decide (k.useLimit - k.useLimit / 16 ≤ w.uses + 1) && !w.wear
  let spent := decide (k.useLimit ≤ w.uses + 1)
  let alone := (k.find .next).isNone
  let erased := spent && !alone && (k.find .retiring).isNone && decide (custodyCount w.epoch t.store.directory = 0)
  let high := allocates && s.store.armed && highReached t.store s.cfg
  let bit := fun (b : Bool) (e : Event) => if b then e.bit else 0
  { k with campaign := campaign }.AfterUse t.keys w t.store.directory ∧
    t.store.armed = (s.store.armed && !high) ∧
    t.lp.events = s.lp.events ||| bit high .storeHigh ||| bit (spent && alone) .keySpent ∧
    t.up.events = s.up.events ||| bit high .storeHigh ||| bit worn .keyWear ||| bit (spent && alone) .keySpent |||
      bit erased .retired

/-- `k'` is `k` with the retiring count of the directory `d`; the RETIRING key is erased if that is 0, and a roll that
waits for this is made (R166). -/
def KeyTable.Resettled (k k' : KeyTable) (d : List Entry) : Prop :=
  (k.find .retiring = none → k' = k) ∧
    ∀ w, k.find .retiring = some w →
      (0 < custodyCount w.epoch d → k' = { k with retiring := custodyCount w.epoch d }) ∧
      (custodyCount w.epoch d = 0 → (k.pendingRoll = false → k' = k.erased) ∧ (k.pendingRoll = true → k.erased.Rolled k' d))

/-- The RETIRING key is erased over a directory: none of its custody entries is left (R166). -/
def KeyTable.Retires (k : KeyTable) (d : List Entry) : Prop :=
  ∃ w, k.find .retiring = some w ∧ custodyCount w.epoch d = 0

/-- The store without its tail entry `e` (R79, R85): `older` remain, and tail slot and counter are set back. -/
def Store.Unclaimed (st st' : Store) (older : List Entry) (e : Entry) (cfg : Settings) : Prop :=
  st' = { st with
    directory := older
    headSlot := if older = [] then e.firstSlot else st.headSlot
    tailSlot := e.firstSlot
    counter := e.number
    armed := st.armed || bothLow { st with directory := older } cfg }

/-- The batch after the abandonment of a CLOSE whose summary had a record number (R156). -/
def Batch.summaryGone (b : Batch) (summary : Nat) : Batch :=
  { b with summaryLost := true, first := summary, shopSeq := if b.shopSeq = 0 then 16777215 else b.shopSeq - 1 }

/-- The directory in which a target that is still REWRAPPING is back in its prior state (R79). -/
def unrewrapped (target : Nat) (d : List Entry) : List Entry :=
  updEntry target (fun x => match x.state with | .rewrapping p => { x with state := p.state } | _ => x) d

/-- `t` differs from `s` in the named blocks only: lanes, engine, store, meter, batch, intake, keys and the event
status of the ports. -/
def State.TakeFrame (s t : State) : Prop :=
  t = { s with
    lanes := t.lanes, engine := t.engine, store := t.store, meter := t.meter, batch := t.batch, intake := t.intake
    keys := t.keys, lp := { s.lp with events := t.lp.events }, up := { s.up with events := t.up.events } }

/-! ### Records in the ring -/

/-- The ring `m'` holds the bytes from address `a` on, around the ring, and elsewhere what `m` holds (R81). -/
def Memory.Holds (m m' : List Host.Cell) (a : Nat) (bytes : List Byte) : Prop :=
  (∀ k : Nat, k < bytes.length → Memory.read m' ((a + k) % 131072) = bytes[k]?.getD 0) ∧
    ∀ b : Nat, (∀ k : Nat, k < bytes.length → b ≠ (a + k) % 131072) → Memory.read m' b = Memory.read m b

/-- The record `new` carries what `old` carries, rewrapped (R56): header and clear part are the same but for the epoch,
and one plain body is enciphered under the old per-record key in `old` and under the new one in `new`. -/
def Rewrapped (oldKey newKey : Key) (epoch : Nat) (old new : List Byte) : Prop :=
  let lc := fieldAt old 30 1
  let lb := fieldAt old 31 1
  new.length = old.length ∧ slice new 12 2 = beBytes 2 epoch ∧
    (∀ i : Nat, i < 32 + lc → i ≠ 12 → i ≠ 13 → new[i]? = old[i]?) ∧
    ∃ plain, slice old (32 + lc) lb = encipher oldKey plain ∧ slice new (32 + lc) lb = encipher newKey plain

/-- The eight data words of a record's descriptor (R93, 12.3). -/
def descriptorWords (e : Entry) : List Word :=
  [BitVec.ofNat 16 (e.number / 65536), BitVec.ofNat 16 e.number, BitVec.ofNat 16 e.firstSlot,
    BitVec.ofNat 8 e.slots ++ BitVec.ofNat 8 e.kind.code, BitVec.ofNat 16 e.length,
    BitVec.ofNat 8 (e.offline.toNat + 2 * e.fallback.toNat + 4 * e.awaiting.toNat) ++ 0#8, 0, 0]

/-! ### Invariants -/

/-- The meter equals the charges of the directory and of the spill list, and no entry out of custody carries a charge
(R118, R86). -/
def State.MeterBalanced (s : State) : Prop :=
  s.meter = directoryCharges s.store.directory + spillCharges s.spill.list ∧
    ∀ e ∈ s.store.directory, e.state.out = true → e.charge = 0

/-- The store stays within its geometry (R81, R83, R93): at most 512 entries, at most 4,096 slots, at most 8 OFFERED,
and the ring's memory in canonical form. -/
def State.StoreFits (s : State) : Prop :=
  s.store.directory.length ≤ Config.directoryMax ∧ s.store.slotsUsed ≤ Config.ringSlots ∧
    offeredCount s.store.directory ≤ Config.offerWindow ∧ Memory.wf s.store.ring = true

/-- The configuration items stand in their ranges, each low mark at most its high mark (R16, R59, R88, R101, R123, R124,
R135, R145, R182). -/
def Settings.InRange (c : Settings) : Prop :=
  (1 ≤ c.onlineTimeout ∧ c.onlineTimeout ≤ 60) ∧
    (1 ≤ c.highSlot ∧ c.highSlot ≤ 4095 ∧ 1 ≤ c.lowSlot ∧ c.lowSlot ≤ c.highSlot) ∧
    (1 ≤ c.highEntry ∧ c.highEntry ≤ 511 ∧ 1 ≤ c.lowEntry ∧ c.lowEntry ≤ c.highEntry) ∧
    (5 ≤ c.offerTimeout ∧ c.offerTimeout ≤ 255) ∧ (1 ≤ c.attemptLimit ∧ c.attemptLimit ≤ 15) ∧
    c.ceiling ≤ 2147483647 ∧ (∀ i : Fin 8, c.risk[i].floor ≤ 99999999 ∧ c.risk[i].weight ≤ 31) ∧
    (1 ≤ c.missThreshold ∧ c.missThreshold ≤ 15) ∧ (1 ≤ c.recoverThreshold ∧ c.recoverThreshold ≤ 15) ∧
    c.forgedLimit ≤ 255 ∧ (1 ≤ c.rewrapShare ∧ c.rewrapShare ≤ 16) ∧ (1 ≤ c.holdLimit ∧ c.holdLimit ≤ 255)

/-- The link monitor's counts are those of its state (R130). -/
def Link.Consistent (l : Link) : Prop :=
  (l.state = .contact → l.misses = 0 ∧ l.signs = 0) ∧ (l.state = .outage → l.misses = 0) ∧
    (l.misses = 0 ∨ l.signs = 0) ∧ l.misses ≤ 15 ∧ l.signs ≤ 15

/-- A port's status and mask hold bits of its own events only, its refusal count is at most 255 and its queue has at
most 4 writes (R181, R184, R191). -/
def Port.Sound (q : Port) (p : PortId) : Prop :=
  q.events &&& ~~~portEvents p = 0 ∧ q.mask &&& ~~~portEvents p = 0 ∧ q.refusalCount ≤ 255 ∧
    q.posted.length ≤ Config.postedPlaces

/-- The configuration, the link monitor and both ports are sound, and a part whose RESET input is asserted does not run
(R104). -/
def State.Regular (s : State) : Prop :=
  s.cfg.InRange ∧ s.link.Consistent ∧ s.lp.Sound .lp ∧ s.up.Sound .up ∧ (s.resetInput = true → s.run ≠ .running)

/-- The order of the roles by age: NEXT over ACTIVE over RETIRING (R159). -/
def Role.rank : Role → Nat
  | .next => 2
  | .active => 1
  | .retiring => 0

/-- Each role is held by at most one slot, epochs rise with the roles, and none exceeds the highest epoch (R159,
R160). -/
def KeyTable.Ordered (k : KeyTable) : Prop :=
  ∀ i : Fin 3, ∀ v, k.slots[i] = some v →
    v.epoch ≤ k.highest ∧
      ∀ j : Fin 3, i ≠ j → ∀ w, k.slots[j] = some w → v.role ≠ w.role ∧ (v.role.rank < w.role.rank → v.epoch < w.epoch)

end Sys2Proof.Machine
end

