-- ==== Sys2Proof/Certificates/Slice0/Obligations.lean ====
section
/-! DEFINITION. The statements for the provers, each from the rules that its docstring names. -/

open Sys2Proof Sys2Proof.Machine

/-! ### The machine as a whole -/

/-- A step takes the command at the front of the queue and executes it on the state with the queue's rest.
The queue is the model's: log entry 1. -/
def Obligations.StepRunsFrontCommand : Prop :=
  ∀ (c : Instr) (s : State), step { s with pending := c :: s.pending } = exec c s

/-- No command touches the queue of waiting commands.
The queue is the model's and it names no fault: log entries 1 and 28. -/
def Obligations.CommandsKeepTheQueue : Prop :=
  ∀ (c : Instr) (s : State), ∃ t, exec c s = .next t ∧ t.pending = s.pending

/-- R105: what a cold start leaves in the record store; and the cold start columns of R22, R36, R80, R117, R122, R137,
R149, R158, R177 and R188, with the defaults of R16, R59, R123, R124, R135, R145 and R182. -/
def Obligations.ColdStartSetsEveryItem : Prop :=
  let r := State.reset
  let st := State.reset.store
  (∀ a, Memory.read st.ring a = 0) ∧ st.slotsUsed = 0 ∧ st.directory = [] ∧ st.headSlot = 0 ∧ st.tailSlot = 0 ∧
    st.counter = 1 ∧ st.armed = true ∧
    State.reset.cfg.highSlot = 3584 ∧ State.reset.cfg.lowSlot = 3072 ∧ State.reset.cfg.highEntry = 448 ∧
    State.reset.cfg.lowEntry = 384 ∧ State.reset.cfg.offerTimeout = 30 ∧ State.reset.cfg.attemptLimit = 8 ∧
  r.run = .running ∧ r.marker = true ∧
    (∀ l : Fin 16, r.lanes[l] =
      ⟨.idle, Vector.replicate 128 0, Vector.replicate 128 false, 0, 0, false, .none, false⟩) ∧
    (∀ c : Fin 15, r.policy[c] = ⟨.unset, false⟩) ∧ r.engine = ⟨none, 0, 0, 0⟩ ∧
    r.spill = ⟨none, []⟩ ∧ r.meter = 0 ∧ r.link = ⟨.doubt, 0, 0⟩ ∧ r.intake = ⟨[], 0, false, 0, 0, none⟩ ∧
    r.batch = ⟨1, Vector.replicate 8 ⟨0, 0, 0, 0, false⟩, 0, 1, false, false, 0⟩ ∧
    r.keys = ⟨Vector.replicate 3 none, none, none, 0, 1048576, false, 0, none, 0⟩ ∧ r.keyLine = .hunt ∧
    (∀ p, (r.port p).posted = [] ∧ (r.port p).lastRefusal = none ∧ (r.port p).refusalCount = 0 ∧
      (r.port p).truncated = false ∧ (r.port p).events = 0 ∧ (r.port p).mask = 0) ∧
    r.cfg.onlineTimeout = 15 ∧ r.cfg.ceiling = 0 ∧ r.cfg.risk = Vector.replicate 8 ⟨0, 8⟩ ∧
    r.cfg.missThreshold = 3 ∧ r.cfg.recoverThreshold = 2 ∧ r.cfg.forgedLimit = 8 ∧ r.cfg.rewrapShare = 8 ∧
    r.cfg.holdLimit = 50

/-! ### Posted writes, reads and holds -/

/-- R181, R182: an arriving write takes the last place of its port's queue, or is held while all 4 are taken. Nothing
else changes, but that an earlier read is no longer being answered. The moments of a write: log entry 3; when a read's
transaction is over: log entry 4. -/
def Obligations.ArrivingWriteTakesPlaceOrIsHeld : Prop :=
  ∀ (c : Instr) (s : State) (p : PortId) (w : PostedWrite), writeOf c = some (p, .post, w) → s.run = .running →
    (s.port p).held = none → w.words.length ≤ 64 →
    ((s.port p).posted.length < 4 →
      exec c s = .next (s.updPort p fun q => { q with posted := q.posted ++ [w], sending := false })) ∧
    (4 ≤ (s.port p).posted.length →
      exec c s = .next (s.updPort p fun q =>
        { q with held := some ⟨.write w, s.cfg.holdLimit, false⟩, sending := false }))

/-- R183: of a write of more than 64 data words the first 64 are kept, an INTAKE write's too, and the 65th data word of
a read that is being answered leaves the answer; each sets the TRUNCATED flag and posts OVERRUN as the words cross. When
the flag is set: log entry 15; when a read is being answered: log entry 4. -/
def Obligations.BurstLimitTruncates : Prop :=
  (∀ (c : Instr) (s : State) (p : PortId) (w : PostedWrite), writeOf c = some (p, .post, w) → s.run = .running →
    (s.port p).held = none → (s.port p).posted.length < 4 → 64 < w.words.length →
    exec c s = .next (s.updPort p fun q =>
      { q with
        posted := q.posted ++ [{ w with words := w.words.take 64 }]
        sending := false
        truncated := true
        events := q.events ||| Event.overrun.bit })) ∧
  (∀ (index : Word) (hdr : Header) (words : List DataWord) (s : State), s.run = .running → s.up.held = none →
    s.up.posted.length < 4 → s.intake.queue.length + s.intake.claimed < 4 → 64 < words.length →
    exec (.intakeClaim index ⟨hdr, words⟩) s = .next { s with
      up := { s.up with
        posted := s.up.posted ++ [⟨intakeWindow, index, hdr, words.take 64⟩]
        sending := false
        truncated := true
        events := s.up.events ||| Event.overrun.bit }
      intake := { s.intake with claimed := s.intake.claimed + 1 } }) ∧
  (∀ (p : PortId) (s : State), s.run = .running → (s.port p).sending = true →
    exec (.readBurstTruncation p) s = .next (s.updPort p fun q =>
      { q with truncated := true, events := q.events ||| Event.overrun.bit }))

/-- R181, R182, R180: an arriving read, of a window or of a control item, is held while its port has posted writes,
under the hold limit of its header, and is answered by its block once the last of them is applied. The last write here
clears the write-status item. The moments of a write: log entry 3; a control item's read: log entry 10. -/
def Obligations.ReadWaitsForPostedWrites : Prop :=
  (∀ (c : Instr) (s : State) (p : PortId) (r : ReadRequest), readOf c = some (p, r) → s.run = .running →
    (s.port p).held = none → (s.port p).posted ≠ [] →
    exec c s = .next (s.updPort p fun q =>
      { q with held := some ⟨.read r, s.cfg.holdLimit, false⟩, sending := false })) ∧
  (∀ (s : State) (p : PortId) (hdr : Header) (words : List DataWord) (r : ReadRequest) (limit : Nat),
    s.run = .running → words.length ≤ 64 →
    (s.port p).posted = [⟨writeStatusItem, portIndex p, hdr, words⟩] → (s.port p).held = some ⟨.read r, limit, false⟩ →
    exec (.writeStatusClear .apply p hdr words) s =
      .next ((s.updPort p fun q =>
        { q with
          posted := [], held := none, sending := false, lastRefusal := none, refusalCount := 0
          truncated := false }).answerRead p r limit))

/-! ### Lanes -/

/-- R1, R3: a LINEAR burst that fits stores each word's enabled bytes at its offset and marks them WRITTEN, and moves an
IDLE lane to ASSEMBLING if it stores a byte. Masked and unreached bytes keep value and mark; the rest of the part is
unchanged. -/
def Obligations.LinearBurstStoresItsBytes : Prop :=
  ∀ (lane : Fin 16) (hdr : Header) (words : List DataWord) (s s' : State),
    s.Applies .lp ⟨laneBufWindow, laneIndex lane, hdr, words⟩ s' →
    (s.lanes[lane].mode = .idle ∨ s.lanes[lane].mode = .assembling) → hdr.form = .linear →
    hdr.offset.toNat + words.length ≤ 64 → hdr.offset.toNat ≤ 63 →
    ∃ l : Lane, exec (.laneBufWrite .apply lane hdr words) s = .next (s'.updLane lane fun _ => l) ∧
      l = { s.lanes[lane] with mode := l.mode, buffer := l.buffer, written := l.written } ∧
      l.mode = (if words.any (fun w => w.high || w.low) then .assembling else s.lanes[lane].mode) ∧
      (∀ (k : Nat) (w : DataWord), words[k]? = some w →
        let i := 2 * (hdr.offset.toNat + k)
        l.buffer[i]? = (if w.high then some (w.value.extractLsb' 8 8) else s.lanes[lane].buffer[i]?) ∧
          l.written[i]? = (if w.high then some true else s.lanes[lane].written[i]?) ∧
          l.buffer[i + 1]? = (if w.low then some (w.value.extractLsb' 0 8) else s.lanes[lane].buffer[i + 1]?) ∧
          l.written[i + 1]? = (if w.low then some true else s.lanes[lane].written[i + 1]?)) ∧
      (∀ i : Nat, i < 2 * hdr.offset.toNat ∨ 2 * (hdr.offset.toNat + words.length) ≤ i →
        l.buffer[i]? = s.lanes[lane].buffer[i]? ∧ l.written[i]? = s.lanes[lane].written[i]?)

/-- R4, R1: a CIRCULAR burst stays within the 8-word chunk of its starting offset. Of each byte the last enabled value
stands and is marked WRITTEN, whatever pass it came in; a byte that no enabled value reaches keeps value and mark. An
IDLE lane moves to ASSEMBLING if a byte is stored, the rest of the lane and of the part is unchanged, and no OVERRUN
is recorded. -/
def Obligations.CircularBurstStaysInItsChunk : Prop :=
  ∀ (lane : Fin 16) (hdr : Header) (words : List DataWord) (s s' : State),
    s.Applies .lp ⟨laneBufWindow, laneIndex lane, hdr, words⟩ s' →
    (s.lanes[lane].mode = .idle ∨ s.lanes[lane].mode = .assembling) → hdr.form = .circular →
    hdr.offset.toNat ≤ 63 →
    let place := fun (k : Nat) => 2 * (hdr.offset.toNat / 8 * 8 + (hdr.offset.toNat + k) % 8)
    let stores := fun (l : Lane) (half : Nat) (enabled : DataWord → Bool) (value : DataWord → Byte) =>
      (∀ (k : Nat) (w : DataWord), words[k]? = some w → enabled w = true →
        (∀ (later : Nat) (v : DataWord), k < later → words[later]? = some v → place later = place k →
          enabled v = false) →
        l.buffer[place k + half]? = some (value w) ∧ l.written[place k + half]? = some true) ∧
      (∀ i : Nat, i % 2 = half →
        (∀ (k : Nat) (w : DataWord), words[k]? = some w → place k + half = i → enabled w = false) →
        l.buffer[i]? = s.lanes[lane].buffer[i]? ∧ l.written[i]? = s.lanes[lane].written[i]?)
    ∃ l : Lane, exec (.laneBufWrite .apply lane hdr words) s = .next (s'.updLane lane fun _ => l) ∧
      l = { s.lanes[lane] with mode := l.mode, buffer := l.buffer, written := l.written } ∧
      l.mode = (if words.any (fun w => w.high || w.low) then .assembling else s.lanes[lane].mode) ∧
      stores l 0 (fun w => w.high) (fun w => w.value.extractLsb' 8 8) ∧
      stores l 1 (fun w => w.low) (fun w => w.value.extractLsb' 0 8) ∧
      (∀ (k : Nat) (w : DataWord), words[k]? = some w → words.length ≤ k + 8 → w.high = true → w.low = true →
        let i := 2 * (hdr.offset.toNat / 8 * 8 + (hdr.offset.toNat + k) % 8)
        l.buffer[i]? = some (w.value.extractLsb' 8 8) ∧ l.written[i]? = some true ∧
          l.buffer[i + 1]? = some (w.value.extractLsb' 0 8) ∧ l.written[i + 1]? = some true) ∧
      (∀ i : Nat, i < 16 * (hdr.offset.toNat / 8) ∨ 16 * (hdr.offset.toNat / 8) + 16 ≤ i →
        l.buffer[i]? = s.lanes[lane].buffer[i]? ∧ l.written[i]? = s.lanes[lane].written[i]?)

/-- R2, R3: a LANE_BUF write to a lane in any state but IDLE and ASSEMBLING is dropped whole and recorded LANE_BUSY.
What a LINEAR burst runs past offset 63 is dropped and recorded OVERRUN, the words before it stand; a starting offset
above 63 stores nothing and is recorded OVERRUN. A write of no words from there too: log entry 27. -/
def Obligations.BufferWriteRefusals : Prop :=
  (∀ (lane : Fin 16) (hdr : Header) (words : List DataWord) (s s' : State),
    s.Applies .lp ⟨laneBufWindow, laneIndex lane, hdr, words⟩ s' →
    s.lanes[lane].mode ≠ .idle → s.lanes[lane].mode ≠ .assembling →
    exec (.laneBufWrite .apply lane hdr words) s =
      .next (s'.updPort .lp fun q => q.refused (refusal laneBufWindow (laneIndex lane) hdr .laneBusy))) ∧
  (∀ (lane : Fin 16) (hdr : Header) (words : List DataWord) (s : State), s.Open .lp → words.length ≤ 64 →
    (s.lanes[lane].mode = .idle ∨ s.lanes[lane].mode = .assembling) → hdr.form = .linear → hdr.offset.toNat ≤ 63 →
    64 < hdr.offset.toNat + words.length →
    ∃ t, exec (.laneBufWrite .apply lane hdr (words.take (64 - hdr.offset.toNat))) s = .next t ∧
      exec (.laneBufWrite .apply lane hdr words) s =
        .next (t.updPort .lp fun q => q.refused (refusal laneBufWindow (laneIndex lane) hdr .overrun))) ∧
  (∀ (lane : Fin 16) (hdr : Header) (words : List DataWord) (s s' : State),
    s.Applies .lp ⟨laneBufWindow, laneIndex lane, hdr, words⟩ s' →
    (s.lanes[lane].mode = .idle ∨ s.lanes[lane].mode = .assembling) → 63 < hdr.offset.toNat →
    exec (.laneBufWrite .apply lane hdr words) s =
      .next (s'.updPort .lp fun q => q.refused (refusal laneBufWindow (laneIndex lane) hdr .overrun)))

/-- R5, R6: WRAP in ASSEMBLING freezes the request that the record checks give and moves the lane to QUEUED; a failed
check or a SET orphan flag changes the last result only. In any other state WRAP is refused, EMPTY in IDLE and else
BUSY, and nothing but the last result changes. That a failed check keeps its code while the orphan flag is SET is the
model's choice: log entry 34. -/
def Obligations.WrapIsAcceptedOrRefused : Prop :=
  (∀ (lane : Fin 16) (hdr : Header) (extra : List DataWord) (s s' : State),
    s.Applies .lp (laneCmdWrite lane hdr wrapWord extra) s' → s.lanes[lane].mode = .assembling →
    let l := s.lanes[lane]
    (∀ r, recordChecks l.buffer l.written s.policy s.link.state l.generation = .ok r → l.orphan = false →
      exec (.wrap .apply lane hdr extra) s = .next (s'.updLane lane fun x => { x with mode := .queued r })) ∧
    (∀ r, recordChecks l.buffer l.written s.policy s.link.state l.generation = .ok r → l.orphan = true →
      exec (.wrap .apply lane hdr extra) s = .next (s'.updLane lane fun x => { x with result := .busy })) ∧
    (∀ c, recordChecks l.buffer l.written s.policy s.link.state l.generation = .error c →
      exec (.wrap .apply lane hdr extra) s = .next (s'.updLane lane fun x => { x with result := c.result }))) ∧
  (∀ (lane : Fin 16) (hdr : Header) (extra : List DataWord) (s s' : State),
    s.Applies .lp (laneCmdWrite lane hdr wrapWord extra) s' → s.lanes[lane].mode ≠ .assembling →
    exec (.wrap .apply lane hdr extra) s =
      .next (s'.updLane lane fun x =>
        { x with result := if s.lanes[lane].mode = .idle then .empty else .busy }))

/-- R28: check 1 fails exactly when a head byte, or a byte up to a declared length in 16 to 128, is UNWRITTEN. -/
def Obligations.UnwrittenByteMakesRecordIncomplete : Prop :=
  ∀ (buf : Vector Byte 128) (written : Vector Bool 128) (policy : Vector PolicyEntry 15) (link : LinkState)
    (generation : Nat),
    recordChecks buf written policy link generation = .error .incomplete ↔
      ∃ i : Fin 128, written[i] = false ∧
        (i.val < 16 ∨ (16 ≤ (buf[5] : Byte).toNat ∧ (buf[5] : Byte).toNat ≤ 128 ∧ i.val < (buf[5] : Byte).toNat))

/-- R24, R30, R33, R42, R43: a request that passes the checks has 2 to 8 slots, an amount in its kind's range, and a
mode and fallback flag as the head, the kind and the link state give them. -/
def Obligations.FrozenRequestStaysInBounds : Prop :=
  ∀ (buf : Vector Byte 128) (written : Vector Bool 128) (policy : Vector PolicyEntry 15) (link : LinkState)
    (generation : Nat) (r : WrapRequest),
    recordChecks buf written policy link generation = .ok r →
      2 ≤ r.slots ∧ r.slots ≤ 8 ∧ r.amount ≤ 99999999 ∧ (r.kind = .sale → 1 ≤ r.amount) ∧
        r.generation = generation ∧
        (r.mode = .online ↔ headMode buf = some .online ∧ link ≠ .outage) ∧
        (link = .outage → headMode buf = some .online → headFallback buf = true) ∧
        (r.fallback = true ↔ r.kind = .sale ∧ headFallback buf = true)

/-- R37: the effective class is the more protective of the shop class, UNSET counting as WRAP, and the requested
class, and it is the class frozen for each field of a request, in list order. -/
def Obligations.EffectiveClassIsMoreProtective : Prop :=
  (∀ (policy : Vector PolicyEntry 15) (f : Machine.Field) (c : Fin 15), f.code = c.val + 1 →
    (effectiveClass policy f).bits =
      max (match policy[c].shopClass with | .clear => 0 | .truncate => 1 | .wrap => 2 | .unset => 2 | .drop => 3)
        f.requested.bits) ∧
  (∀ (buf : Vector Byte 128) (written : Vector Bool 128) (policy : Vector PolicyEntry 15) (link : LinkState)
    (generation : Nat) (r : WrapRequest), recordChecks buf written policy link generation = .ok r →
    ∃ fields, fieldList buf = some fields ∧ r.classes = fields.map (effectiveClass policy))

/-- R8, R9, R10: ABANDON clears an ASSEMBLING or QUEUED lane to IDLE with ABANDONED and is refused BUSY elsewhere.
RESET_LANE brings the lane to IDLE from any state and clears the awaiting flag of its awaited record; the orphan flag is
set if a job of the lane is in service, and the lane sequence stays. -/
def Obligations.AbandonAndResetReachIdle : Prop :=
  (∀ (lane : Fin 16) (hdr : Header) (extra : List DataWord) (s s' : State),
    s.Applies .lp (laneCmdWrite lane hdr abandonWord extra) s' →
    (((s.lanes[lane].mode = .assembling ∨ ∃ r, s.lanes[lane].mode = .queued r) →
      exec (.abandon .apply lane hdr extra) s = .next (s'.updLane lane fun x =>
        { x with
          mode := .idle
          buffer := Vector.replicate 128 0
          written := Vector.replicate 128 false
          result := .abandoned })) ∧
    ((s.lanes[lane].mode ≠ .assembling ∧ ∀ r, s.lanes[lane].mode ≠ .queued r) →
      exec (.abandon .apply lane hdr extra) s = .next (s'.updLane lane fun x => { x with result := .busy })))) ∧
  (∀ (lane : Fin 16) (hdr : Header) (extra : List DataWord) (s s' : State),
    s.Applies .lp (laneCmdWrite lane hdr resetLaneWord extra) s' →
    let l := s.lanes[lane]
    let inService := l.mode = .wrapping ∨ ∃ a : AdviceRequest, a.taken = true ∧ l.mode = .fallback a
    ∃ orphan : Bool, (orphan = true ↔ l.orphan = true ∨ inService) ∧
      exec (.resetLane .apply lane hdr extra) s =
        .next ((match l.mode with
          | .waitResponse a _ =>
            s'.updStore fun st => st.updEntry a.number fun e => { e with awaiting := false }
          | _ => s').updLane lane fun x =>
            { mode := .idle, buffer := Vector.replicate 128 0, written := Vector.replicate 128 false, seq := x.seq
              generation := if x.generation = 255 then 0 else x.generation + 1, orphan := orphan, result := .reset
              attention := false }))

/-- R10, R95, R112, R185: a write that is too short or names no command of its window is dropped, recorded with its
window, index and reason, and changes nothing else. That a short CONFIRM or SPILL write is BAD_FORMAT whatever its first
word is the model's choice: log entry 32. -/
def Obligations.MalformedCommandIsDropped : Prop :=
  (∀ (lane : Fin 16) (hdr : Header) (words : List DataWord) (s s' : State),
    s.Applies .lp ⟨laneCmdWindow, laneIndex lane, hdr, words⟩ s' →
    (words = [] → exec (.laneCmdBadCommand .apply lane hdr words) s =
      .next (s'.updPort .lp fun q => q.refused (refusal laneCmdWindow (laneIndex lane) hdr .badFormat))) ∧
    (∀ w rest, words = w :: rest → (w.value = 0 ∨ 3 < w.value.toNat) →
      exec (.laneCmdBadCommand .apply lane hdr words) s =
        .next (s'.updPort .lp fun q => q.refused (refusal laneCmdWindow (laneIndex lane) hdr .badCommand)))) ∧
  (∀ (index : Word) (hdr : Header) (words : List DataWord) (s s' : State),
    s.Applies .up ⟨confirmWindow, index, hdr, words⟩ s' →
    (words.length < 3 → exec (.confirmMalformed .apply index hdr words) s =
      .next (s'.updPort .up fun q => q.refused (refusal confirmWindow index hdr .badFormat))) ∧
    (∀ w rest, words = w :: rest → 3 ≤ words.length → (w.value = 0 ∨ 3 < w.value.toNat) →
      exec (.confirmMalformed .apply index hdr words) s =
        .next (s'.updPort .up fun q => q.refused (refusal confirmWindow index hdr .badCommand)))) ∧
  (∀ (index : Word) (hdr : Header) (words : List DataWord) (s s' : State),
    s.Applies .lp ⟨spillWindow, index, hdr, words⟩ s' →
    (words.length < 3 → exec (.spillCommandRefused .apply index hdr words) s =
      .next (s'.updPort .lp fun q => q.refused (refusal spillWindow index hdr .badFormat))) ∧
    (∀ w rest, words = w :: rest → 3 ≤ words.length → (w.value = 0 ∨ 2 < w.value.toNat) →
      exec (.spillCommandRefused .apply index hdr words) s =
        .next (s'.updPort .lp fun q => q.refused (refusal spillWindow index hdr .badCommand)))) ∧
  (∀ (index : Word) (hdr : Header) (words : List DataWord) (s s' : State),
    s.Applies .up ⟨shopCmdWindow, index, hdr, words⟩ s' →
    (words = [] → exec (.shopCmdMalformed .apply index hdr words) s =
      .next (s'.updPort .up fun q => q.refused (refusal shopCmdWindow index hdr .badFormat))) ∧
    (∀ w rest, words = w :: rest → (w.value = 0 ∨ 5 < w.value.toNat) →
      exec (.shopCmdMalformed .apply index hdr words) s =
        .next (s'.updPort .up fun q => q.refused (refusal shopCmdWindow index hdr .badCommand))))

/-- R20, R21: a LANE_CMD read returns state, result, number and reason and clears the attention bit only; a LANE_RSP
read hands an ANSWERED lane's response out once and makes the lane IDLE, and in any other state answers EMPTY and
changes nothing. -/
def Obligations.LaneReadsReportAndRelease : Prop :=
  (∀ (lane : Fin 16) (hdr : Header) (s : State), s.Open .lp →
    let l := s.lanes[lane]
    exec (.laneCmdRead lane hdr) s =
      .next ((s.updLane lane fun x => { x with attention := false }).updPort .lp fun q => q.answered .ok hdr
        [BitVec.ofNat 8 l.mode.code ++ BitVec.ofNat 8 l.result.code, BitVec.ofNat 16 (l.result.number / 65536),
          BitVec.ofNat 16 l.result.number, BitVec.ofNat 8 l.result.reason ++ 0#8])) ∧
  (∀ (lane : Fin 16) (hdr : Header) (s : State), s.Open .lp →
    (∀ r, s.lanes[lane].mode = .answered r →
      exec (.laneRspRead lane hdr) s =
        .next ((s.updLane lane fun x => { x with mode := .idle, attention := false }).updPort .lp fun q =>
          q.answered .ok hdr (wordsOf (beBytes 4 r.number ++ beBytes 1 r.result.code ++ padTo 6 r.approval ++
            padTo 6 r.reference ++ [0])))) ∧
    ((∀ r, s.lanes[lane].mode ≠ .answered r) →
      exec (.laneRspRead lane hdr) s = .next (s.updPort .lp fun q => q.answered .empty hdr [])))

/-- R17, R131, R132: the online timer's expiry clears the awaiting flag, counts a miss, and moves the lane to FALLBACK
with an advice request, or to IDLE with NO_ANSWER, its attention bit and LANE. -/
def Obligations.TimerExpiryFallsBackOrGivesUp : Prop :=
  ∀ (lane : Fin 16) (s : State) (a : Awaited) (timer : Nat), s.run = .running →
    s.lanes[lane].mode = .waitResponse a timer →
    let t := (s.updStore fun st => st.updEntry a.number fun e => { e with awaiting := false }).linkMiss
    (a.fallback = true →
      exec (.onlineTimerExpiry lane) s = .next (t.updLane lane fun x =>
        { x with mode := .fallback ⟨a.number, a.amount, a.cardClass, x.generation, false⟩ })) ∧
    (a.fallback = false →
      exec (.onlineTimerExpiry lane) s = .next ((t.updLane lane fun x =>
        { x with mode := .idle, result := .noAnswer a.number, attention := true }).updPort .lp fun q =>
          q.signalled .lane))

/-! ### The wrap engine: choosing and taking a job -/

/-- R63, R64: an IDLE engine chooses an OPEN first, then the first class A lane from the A pointer, then an eligible
REWRAP whose share has come or that stands alone, then the first class B position from the B pointer. A SERVING engine
takes nothing. -/
def Obligations.ArbiterChoosesFirstCase : Prop :=
  ∀ s : State,
    let noA := ∀ l : Fin 16, s.lanes[l].pendingA = false
    let noB := ∀ pos : Nat, pos < 17 → s.pendingB pos = false
    let rewrap := s.keys.campaign ≠ none ∧ s.keys.usable = true
    (s.engine.job ≠ none → s.due = none) ∧
    (s.engine.job = none → s.intake.queue ≠ [] → s.due = some .opening) ∧
    (s.engine.job = none → s.intake.queue = [] → ∀ k : Nat, k < 16 →
      s.lanes[laneOf (s.engine.aPtr + k)].pendingA = true →
      (∀ j : Nat, j < k → s.lanes[laneOf (s.engine.aPtr + j)].pendingA = false) →
      s.due = some (.wrapA (laneOf (s.engine.aPtr + k)))) ∧
    (s.engine.job = none → s.intake.queue = [] → noA → rewrap →
      (s.engine.share = s.cfg.rewrapShare ∨ noB) → s.due = some .rewrap) ∧
    (s.engine.job = none → s.intake.queue = [] → noA → ¬ (rewrap ∧ s.engine.share = s.cfg.rewrapShare) →
      ∀ k : Nat, k < 17 → s.pendingB ((s.engine.bPtr + k) % 17) = true →
      (∀ j : Nat, j < k → s.pendingB ((s.engine.bPtr + j) % 17) = false) →
      let pos := (s.engine.bPtr + k) % 17
      s.due = some (if pos = 16 then .close
        else if s.lanes[laneOf pos].pendingOfflineWrap then .wrapB (laneOf pos) else .advise (laneOf pos))) ∧
    (s.engine.job = none → s.intake.queue = [] → noA → ¬ rewrap → noB → s.due = none)

/-- R68, R12, R84, R64, R65: a WRAP take whose checks pass claims the tail entry, number, lane sequence, key use and
charge, moves the lane to WRAPPING with its buffer cleared and puts the job in service. The key table, the high-mark
flag and the events are as R162 to R164 and R89 say, and nothing else changes. That the WRITING entry's length is 0 is
the model's choice: log entry 17. -/
def Obligations.WrapTakeClaimsRecord : Prop :=
  ∀ (s : State) (lane : Fin 16) (r : WrapRequest) (w : WrapKey) (charge : Nat), s.run = .running →
    (s.due = some (.wrapA lane) ∨ s.due = some (.wrapB lane)) → s.lanes[lane].mode = .queued r →
    s.KeyAndRoom w (r.slots + 16) 6 →
    (r.kind = .sale ∧ r.mode = .offline → s.ExposureAccepts r.cardClass r.amount charge) →
    (¬ (r.kind = .sale ∧ r.mode = .offline) → charge = 0) →
    let l := s.lanes[lane]
    let job := Job.wrap ⟨lane, r, l.buffer, w.key, w.epoch, s.store.counter, l.seq⟩
    ∃ t, exec .takeWrap s = .next t ∧ s.TakeFrame t ∧ t.batch = s.batch ∧ t.intake = s.intake ∧
      t.meter = s.meter + charge ∧
      t.lanes = s.lanes.set lane
        { l with
          mode := .wrapping
          buffer := Vector.replicate 128 0
          written := Vector.replicate 128 false
          seq := if l.seq = 16777215 then 0 else l.seq + 1 } ∧
      t.store = { s.store with
        directory := s.store.directory ++
          [{ number := s.store.counter, lane := lane, laneSeq := l.seq, kind := r.kind.stored
             offline := decide (r.mode = .offline), fallback := r.fallback, batch := s.batch.number, epoch := w.epoch
             firstSlot := s.store.tailSlot, slots := r.slots, length := 0, state := .writing, charge := charge
             awaiting := false, attempts := 0 }]
        tailSlot := (s.store.tailSlot + r.slots) % 4096
        counter := if s.store.counter = 4294967295 then 1 else s.store.counter + 1
        armed := t.store.armed } ∧
      t.store.armed = (s.store.armed && !highReached t.store s.cfg) ∧
      (s.due = some (.wrapA lane) → t.engine = { s.engine with job := some job, aPtr := (lane.val + 1) % 16 }) ∧
      (s.due = some (.wrapB lane) → t.engine = { s.engineAfterB lane with job := some job }) ∧
      s.KeyUsed t w s.keys.campaign true ∧ ∃ i : Fin 3, s.keys.UsedOnce t.keys i w

/-- R11, R66, R67, R64: a WRAP take refused for a reason moves its pointer and returns the lane to ASSEMBLING with its
buffer, the result, attention and LANE; STORE_FULL is posted for room. Nothing else changes. -/
def Obligations.RefusedWrapTakeConsumesNothing : Prop :=
  ∀ (s : State) (lane : Fin 16) (r : WrapRequest) (x : RefuseReason), s.run = .running →
    (s.due = some (.wrapA lane) ∨ s.due = some (.wrapB lane)) → s.lanes[lane].mode = .queued r →
    s.RefusedFor (r.slots + 16) 6 (r.kind = .sale ∧ r.mode = .offline) r.cardClass r.amount x →
    exec .takeWrap s = .next { s with
      engine :=
        if s.due = some (.wrapA lane) then { s.engine with aPtr := (lane.val + 1) % 16 } else s.engineAfterB lane
      lanes := s.lanes.set lane { s.lanes[lane] with
        mode := .assembling
        result := match x with
          | .noKey => .noKey
          | .keySpent => .keySpent
          | .storeFull => .storeFull
          | .floor => .offlineRefused .floor
          | .ceiling => .offlineRefused .ceiling
        attention := true }
      lp := s.lp.signalled .lane
      up := if x = .storeFull then s.up.signalled .storeFull else s.up }

/-- R69, R18, R66: an ADVISE take accepted claims an ADVICE entry of 2 slots and the lane stays in FALLBACK, with key
table, high-mark flag and events as R162 to R164 and R89 say; refused, the lane ends in IDLE with OFFLINE_REFUSED and
the reason. The reason NO_KEY: log entry 22. The WRITING entry's length 0 is the model's choice: log entry 17. -/
def Obligations.AdviseTakeClaimsAdviceOrRefuses : Prop :=
  ∀ (s : State) (lane : Fin 16) (a : AdviceRequest), s.run = .running → s.due = some (.advise lane) →
    s.lanes[lane].mode = .fallback a →
    let l := s.lanes[lane]
    (∀ (w : WrapKey) (charge : Nat), s.KeyAndRoom w 2 1 → s.ExposureAccepts a.cardClass a.amount charge →
      ∃ t, exec .takeAdvise s = .next t ∧ s.TakeFrame t ∧ t.batch = s.batch ∧ t.intake = s.intake ∧
        t.meter = s.meter + charge ∧
        t.lanes = s.lanes.set lane { l with
          mode := .fallback { a with taken := true }
          seq := if l.seq = 16777215 then 0 else l.seq + 1 } ∧
        t.store = { s.store with
          directory := s.store.directory ++
            [{ number := s.store.counter, lane := lane, laneSeq := l.seq, kind := .advice, offline := true
               fallback := false, batch := s.batch.number, epoch := w.epoch, firstSlot := s.store.tailSlot, slots := 2
               length := 0, state := .writing, charge := charge, awaiting := false, attempts := 0 }]
          tailSlot := (s.store.tailSlot + 2) % 4096
          counter := if s.store.counter = 4294967295 then 1 else s.store.counter + 1
          armed := t.store.armed } ∧
        t.engine = { s.engineAfterB lane with
          job := some (.advise ⟨lane, a.generation, a.origin, a.amount, a.cardClass, charge, w.key, w.epoch,
            s.store.counter, l.seq⟩) } ∧
        s.KeyUsed t w s.keys.campaign true ∧ ∃ i : Fin 3, s.keys.UsedOnce t.keys i w) ∧
    (∀ x : RefuseReason, s.RefusedFor 2 1 True a.cardClass a.amount x →
      exec .takeAdvise s = .next { s with
        engine := s.engineAfterB lane
        lanes := s.lanes.set lane { l with mode := .idle, result := .offlineRefused x, attention := true }
        lp := s.lp.signalled .lane
        up := if x = .storeFull then s.up.signalled .storeFull else s.up })

/-- R162, R163, R164: any take that puts a job in service with the use that brings the ACTIVE key's count to the use
limit posts KEY_WEAR if the wear flag was clear, and then rolls at once, sets the pending-roll flag, or posts KEY_SPENT
on both ports, as NEXT and RETIRING stand. -/
def Obligations.SpendingTakeRollsOrReports : Prop :=
  ∀ (c : Instr) (s t : State) (w : WrapKey),
    c = .takeWrap ∨ c = .takeAdvise ∨ c = .takeRewrap ∨ c = .takeClose → s.run = .running → s.engine.job = none →
    s.keys.active = some w → w.uses + 1 = s.keys.useLimit → exec c s = .next t → t.engine.job ≠ none →
    (w.wear = false → t.up.events &&& Event.keyWear.bit ≠ 0) ∧
    (∀ v, s.keys.find .next = some v → s.keys.find .retiring = none →
      t.keys.find .active = some { v with role := .active, uses := 0, wear := false } ∧
        t.keys.find .retiring = some { w with role := .retiring, uses := w.uses + 1, wear := true } ∧
        t.keys.pendingRoll = false ∧ t.keys.retiring = custodyCount w.epoch t.store.directory) ∧
    (s.keys.find .next ≠ none → s.keys.find .retiring ≠ none → t.keys.pendingRoll = true) ∧
    (s.keys.find .next = none →
      t.up.events &&& Event.keySpent.bit ≠ 0 ∧ t.lp.events &&& Event.keySpent.bit ≠ 0 ∧
        t.keys.find .active = some { w with uses := w.uses + 1, wear := true })

/-- R70, R65, R167: a REWRAP take of a HELD or PARKED entry of the RETIRING epoch makes it REWRAPPING, uses the ACTIVE
key once (R162 to R164) and copies its slots; any other target is dropped. Either way the share counter is 0 and the
campaign looks again. -/
def Obligations.RewrapTakeStartsOrDrops : Prop :=
  ∀ (s : State) (target : Nat), s.run = .running → s.due = some .rewrap → s.keys.campaign = some target →
    (∀ (e : Entry) (p : Prior) (old new : WrapKey), findEntry target s.store.directory = some e → e.state = p.state →
      s.keys.find .retiring = some old → e.epoch = old.epoch → s.keys.active = some new →
      ∃ t, exec .takeRewrap s = .next t ∧ s.TakeFrame t ∧ t.lanes = s.lanes ∧ t.meter = s.meter ∧
        t.batch = s.batch ∧ t.intake = s.intake ∧
        t.store = { s.store with
          directory := updEntry target (fun x => { x with state := .rewrapping p }) s.store.directory } ∧
        t.engine = { s.engine with
          share := 0
          job := some (.rewrap ⟨target, Memory.readRun s.store.ring (32 * e.firstSlot) (32 * e.slots), old.key, new.key,
            new.epoch⟩) } ∧
        t.keys.campaign = campaignTarget old.epoch t.store.directory ∧
        s.KeyUsed t new (campaignTarget old.epoch t.store.directory) false ∧
        ∃ i : Fin 3, s.keys.UsedOnce t.keys i new) ∧
    ((∀ (e : Entry) (old : WrapKey), findEntry target s.store.directory = some e →
        s.keys.find .retiring = some old → e.epoch = old.epoch → e.state ≠ .held ∧ e.state ≠ .parked) →
      exec .takeRewrap s = .next { s with
        engine := { s.engine with share := 0 }
        keys := { s.keys with
          campaign := match s.keys.find .retiring with
            | some old => campaignTarget old.epoch s.store.directory
            | none => none } })

/-- R71, R153, R146: a CLOSE take hands the snapshot to the job, zeroes and advances the batch, clears the intake's
counts and allocates the SUMMARY entry of lane 16 under the closed batch, with key table, high-mark flag and events as
R162 to R164 and R89 say. That the WRITING entry's length is 0 is the model's choice: log entry 17. -/
def Obligations.CloseTakeCutsTheBatchOver : Prop :=
  ∀ (s : State) (w : WrapKey), s.run = .running → s.due = some .close → s.keys.active = some w →
    let n := s.store.counter
    ∃ t, exec .takeClose s = .next t ∧ s.TakeFrame t ∧ t.lanes = s.lanes ∧ t.meter = s.meter ∧
      t.intake = { s.intake with forged := 0, late := 0 } ∧
      t.batch =
        { number := if s.batch.number = 65535 then 1 else s.batch.number + 1
          classes := Vector.replicate 8 ⟨0, 0, 0, 0, false⟩
          recordCount := 0
          first := if n = 4294967295 then 1 else n + 1
          summaryLost := false
          closePending := false
          shopSeq := if s.batch.shopSeq = 16777215 then 0 else s.batch.shopSeq + 1 } ∧
      t.store = { s.store with
        directory := s.store.directory ++
          [{ number := n, lane := 16, laneSeq := s.batch.shopSeq, kind := .summary, offline := true, fallback := false
             batch := s.batch.number, epoch := w.epoch, firstSlot := s.store.tailSlot, slots := 7, length := 0
             state := .writing, charge := 0, awaiting := false, attempts := 0 }]
        tailSlot := (s.store.tailSlot + 7) % 4096
        counter := if n = 4294967295 then 1 else n + 1
        armed := t.store.armed } ∧
      t.engine = { s.engineAfterB 16 with
        job := some (.close ⟨⟨s.batch.classes, s.batch.recordCount, s.batch.number, s.batch.first,
          if n ≤ 1 then 4294967295 else n - 1, s.batch.summaryLost⟩, w.key, w.epoch, n, s.batch.shopSeq⟩) } ∧
      s.KeyUsed t w s.keys.campaign true ∧ ∃ i : Fin 3, s.keys.UsedOnce t.keys i w

/-- R72, R140: an OPEN take moves the oldest response record and the response key into the working copy; an INTAKE write
held for want of an intake place is admitted by it, and nothing else changes. -/
def Obligations.OpenTakeFreesAnIntakePlace : Prop :=
  ∀ (s : State) (record : List Byte) (rest : List (List Byte)), s.run = .running → s.due = some .opening →
    s.intake.queue = record :: rest →
    let t := { s with
      intake := { s.intake with queue := rest }
      engine := { s.engine with job := some (.opening ⟨record, s.keys.response⟩) } }
    (s.up.held = none → exec .takeOpen s = .next t) ∧
    (∀ (w : PostedWrite) (limit : Nat) (b : Bool), s.up.held = some ⟨.intake w, limit, b⟩ → w.words.length ≤ 64 →
      s.up.posted.length < 4 → s.intake.queue.length + s.intake.claimed ≤ 4 →
      exec .takeOpen s = .next { t with
        intake := { t.intake with claimed := t.intake.claimed + 1 }
        up := { s.up with held := none, sending := false, posted := s.up.posted ++ [w] } })

/-! ### The wrap engine: completions -/

/-- R73, R13, R15, R52, R53, R151: a WRAP completion writes the sealed record into its slots and makes the entry HELD,
adds the record to the batch, and takes its own lane to WAIT_RESPONSE or IDLE; an orphan's completion only clears the
orphan flag. The campaign looks (R167). -/
def Obligations.WrapCompletionCommitsRecord : Prop :=
  ∀ (s : State) (j : WrapJob) (e : Entry), s.run = .running → s.engine.job = some (.wrap j) →
    findEntry j.number s.store.directory = some e → j.request.slots ≤ 4096 → Memory.wf s.store.ring = true →
    let l := s.lanes[j.lane]
    let own := l.generation = j.request.generation ∧ l.orphan = false
    let online := j.request.mode = .online
    let c := s.batch.classes[j.request.cardClass]
    ∃ t, exec .wrapCompletion s = .next t ∧
      t = { s with
        lanes := t.lanes, engine := { s.engine with job := none }, store := { s.store with
          directory := t.store.directory, ring := t.store.ring }
        batch := t.batch, keys := { s.keys with campaign := t.keys.campaign }, lp := t.lp, up := t.up } ∧
      t.store.directory = updEntry j.number (fun x => { x with
        state := .held, batch := s.batch.number, length := j.recordLength
        awaiting := decide (own ∧ online) }) s.store.directory ∧
      Memory.Holds s.store.ring t.store.ring (32 * e.firstSlot) (j.sealed s.keys.identity s.batch.number) ∧
      t.batch = { s.batch with
        recordCount := min 16777215 (s.batch.recordCount + 1)
        classes := s.batch.classes.set j.request.cardClass
          (if j.request.kind = .sale then
            { c with
              debitCount := min 16777215 (c.debitCount + 1)
              debitTotal := min 1099511627775 (c.debitTotal + j.request.amount)
              saturated := c.saturated || decide (16777215 < c.debitCount + 1) ||
                decide (1099511627775 < c.debitTotal + j.request.amount) }
          else
            { c with
              creditCount := min 16777215 (c.creditCount + 1)
              creditTotal := min 1099511627775 (c.creditTotal + j.request.amount)
              saturated := c.saturated || decide (16777215 < c.creditCount + 1) ||
                decide (1099511627775 < c.creditTotal + j.request.amount) }) } ∧
      t.up = (if online then (s.up.signalled .offerReady).signalled .urgentReady else s.up.signalled .offerReady) ∧
      (own → online → t.lp = s.lp.signalled .lane ∧ t.lanes = s.lanes.set j.lane { l with
        mode := .waitResponse ⟨j.number, j.laneSeq, j.request.fallback, j.request.amount, j.request.cardClass⟩
          s.cfg.onlineTimeout
        result := .wrapped j.number
        attention := true }) ∧
      (own → ¬ online → t.lp = s.lp.signalled .lane ∧ t.lanes = s.lanes.set j.lane { l with
        mode := .idle, result := .offlineAccepted j.number, attention := true }) ∧
      (¬ own → t.lp = s.lp ∧ t.lanes = s.lanes.set j.lane { l with orphan := false }) ∧
      t.keys.campaign = s.keys.lookedOver t.store.directory

/-- R73, R18, R74, R155: an ADVISE completion commits its record of 64 bytes and ends FALLBACK with OFFLINE_ACCEPTED; a
CLOSE completion commits the summary of 208 bytes under the closed batch, posts BATCH_CLOSED and tells no lane. Neither
changes the batch, and the campaign looks after either (R167). -/
def Obligations.AdviceAndSummaryCompletionsCommit : Prop :=
  (∀ (s : State) (j : AdviseJob) (e : Entry), s.run = .running → s.engine.job = some (.advise j) →
    findEntry j.number s.store.directory = some e → Memory.wf s.store.ring = true →
    let l := s.lanes[j.lane]
    let own := l.generation = j.generation ∧ l.orphan = false
    ∃ t, exec .adviseCompletion s = .next t ∧
      t = { s with
        lanes := t.lanes, engine := { s.engine with job := none }, store := { s.store with
          directory := t.store.directory, ring := t.store.ring }
        keys := { s.keys with campaign := t.keys.campaign }, lp := t.lp, up := s.up.signalled .offerReady } ∧
      t.store.directory = updEntry j.number (fun x => { x with
        state := .held, batch := s.batch.number, length := 64, awaiting := false }) s.store.directory ∧
      Memory.Holds s.store.ring t.store.ring (32 * e.firstSlot) (j.sealed s.keys.identity s.batch.number) ∧
      (own → t.lp = s.lp.signalled .lane ∧ t.lanes = s.lanes.set j.lane { l with
        mode := .idle, result := .offlineAccepted j.number, attention := true }) ∧
      (¬ own → t.lp = s.lp ∧ t.lanes = s.lanes.set j.lane { l with orphan := false }) ∧
      t.keys.campaign = s.keys.lookedOver t.store.directory) ∧
  (∀ (s : State) (j : CloseJob) (e : Entry), s.run = .running → s.engine.job = some (.close j) →
    findEntry j.number s.store.directory = some e → Memory.wf s.store.ring = true →
    ∃ t, exec .closeCompletion s = .next t ∧
      t = { s with
        engine := { s.engine with job := none }, store := { s.store with
          directory := t.store.directory, ring := t.store.ring }
        keys := { s.keys with campaign := t.keys.campaign }
        up := (s.up.signalled .offerReady).signalled .batchClosed } ∧
      t.store.directory = updEntry j.number (fun x => { x with
        state := .held, batch := j.snapshot.number, length := 208, awaiting := false }) s.store.directory ∧
      Memory.Holds s.store.ring t.store.ring (32 * e.firstSlot) (j.sealed s.keys.identity) ∧
      t.keys.campaign = s.keys.lookedOver t.store.directory)

/-- R75, R56, R166: a REWRAP completion rewrites a target that is still REWRAPPING under the new epoch, with its header,
clear part and plain body as they were, and returns it to its prior state; a target no longer REWRAPPING leaves the
store alone. The retiring count is then set; at 0 the RETIRING key is erased with RETIRED, and a roll that waits for
this is made. No read is held at the store here. The count of choices is the model's: log entry 8; that a cipher's
decipherment undoes its encipherment: log entry 36. -/
def Obligations.RewrapCompletionRestoresTarget : Prop :=
  ∀ (s : State) (j : RewrapJob), s.run = .running → s.engine.job = some (.rewrap j) →
    (∀ (p : PortId) (r : ReadRequest) (limit : Nat), (s.port p).held ≠ some ⟨.read r, limit, true⟩) →
    ∃ t, exec .rewrapCompletion s = .next t ∧
      t = { s with
        engine := { s.engine with job := none }
        store := { s.store with directory := t.store.directory, ring := t.store.ring }
        keys := t.keys, up := { s.up with events := t.up.events }, choices := s.choices + 1 } ∧
      (∀ (e : Entry) (p : Prior), findEntry j.target s.store.directory = some e → e.state = .rewrapping p →
        e.slots ≤ 4096 → Memory.wf s.store.ring = true →
        t.store.directory =
          updEntry j.target (fun x => { x with state := p.state, epoch := j.epoch }) s.store.directory ∧
        Memory.Holds s.store.ring t.store.ring (32 * e.firstSlot) (j.sealed e) ∧
        (j.content.length = 32 * e.slots →
          48 + fieldAt j.content 30 1 + fieldAt j.content 31 1 ≤ 32 * e.slots →
          Rewrapped (Config.deriveKey j.oldKey .record e.number e.lane e.laneSeq)
            (Config.deriveKey j.newKey .record e.number e.lane e.laneSeq) j.epoch j.content (j.sealed e))) ∧
      ((∀ (e : Entry) (p : Prior), findEntry j.target s.store.directory = some e → e.state ≠ .rewrapping p) →
        t.store = s.store) ∧
      s.keys.Resettled t.keys t.store.directory ∧
      (s.keys.Retires t.store.directory → t.up = s.up.signalled .retired) ∧
      (¬ s.keys.Retires t.store.directory → t.up = s.up)

/-- R92, R93, R108 to R110: a read held at the store at a REWRAP completion is evaluated afresh in it, whatever the
order of the completion's other actions: an offer read is answered with the candidate then, which becomes OFFERED, and a
spill read by the first case of R108 that applies then (there is a candidate: the target). Of one candidate for both
reads, one of them is answered with it. That the order is free: log entry 8. -/
def Obligations.HeldReadsAreAnsweredAtRewrapCompletion : Prop :=
  ∀ (s : State) (j : RewrapJob) (e : Entry) (p : Prior), s.run = .running → s.engine.job = some (.rewrap j) →
    findEntry j.target s.store.directory = some e → e.state = .rewrapping p →
    let d := updEntry j.target (fun x => { x with state := p.state, epoch := j.epoch }) s.store.directory
    let above := s.cfg.lowSlot < (d.map Entry.slots).sum ∨ s.cfg.lowEntry < d.length
    let spillable := fun (x : Entry) => x.state = .held ∨ x.state = .parked ∨ ∃ q, x.state = .rewrapping q
    (∀ (c : Entry) (index : Word) (hdr : Header) (limit : Nat),
      s.up.held = some ⟨.read ⟨.offer, index, hdr⟩, limit, true⟩ →
      (∀ r l, s.lp.held ≠ some ⟨.read r, l, true⟩) → offeredCount d < 8 → offerCandidate d = some c → c.state = .held →
      ∃ t, exec .rewrapCompletion s = .next t ∧ t.up.held = none ∧
        t.up.answer = some ⟨.ok, hdr.tag, descriptorWords c⟩ ∧
        t.store.directory = updEntry c.number (fun x => { x with state := .offered s.cfg.offerTimeout }) d) ∧
    (∀ (index : Word) (hdr : Header) (limit : Nat), s.lp.held = some ⟨.read ⟨.spill, index, hdr⟩, limit, true⟩ →
      (∀ r l, s.up.held ≠ some ⟨.read r, l, true⟩) →
      ∃ t, exec .rewrapCompletion s = .next t ∧
        let answered := fun (status : ReadStatus) (words : List Word) =>
          t.store.directory = d ∧ t.spill = s.spill ∧
            t.lp = { s.lp with held := none, sending := false }.answered status hdr words
        (¬ above → t.store.directory = d ∧ t.spill = s.spill ∧
          t.lp = ({ s.lp with held := none, sending := false }.refused
            (refusal spillWindow index hdr .denied)).answered .denied hdr []) ∧
        (above → (∃ x ∈ d, x.state = .spilling) → answered .busy []) ∧
        (above → (∀ x ∈ d, x.state ≠ .spilling) →
          ∀ (older younger : List Entry) (c : Entry), d = older ++ c :: younger → (∀ x ∈ older, ¬ spillable x) →
            (∀ x ∈ older, x.number ≠ c.number) →
            ((∃ q, c.state = .rewrapping q) → t.store.directory = d ∧ t.spill = s.spill ∧
              t.lp = { s.lp with sending := false }) ∧
            ((c.state = .held ∨ c.state = .parked) → 0 < c.charge → 256 ≤ s.spill.list.length →
              answered .empty [2]) ∧
            ((c.state = .held ∨ c.state = .parked) → (c.charge = 0 ∨ s.spill.list.length < 256) →
              t.store.directory = older ++ { c with state := .spilling } :: younger ∧
                t.spill = { s.spill with reservation := some ⟨c.number, true⟩ } ∧
                t.lp = { s.lp with held := none, sending := false }.answered .ok hdr (descriptorWords c)))) ∧
    (∀ (older younger : List Entry) (c : Entry) (index index' : Word) (hdr hdr' : Header) (limit limit' : Nat),
      s.up.held = some ⟨.read ⟨.offer, index, hdr⟩, limit, true⟩ →
      s.lp.held = some ⟨.read ⟨.spill, index', hdr'⟩, limit', true⟩ → offeredCount d < 8 →
      offerCandidate d = some c → c.state = .held → above → (∀ x ∈ d, x.state ≠ .spilling) →
      d = older ++ c :: younger → (∀ x ∈ older, ¬ spillable x) → (c.charge = 0 ∨ s.spill.list.length < 256) →
      ∃ t, exec .rewrapCompletion s = .next t ∧
        (t.up.answer = some ⟨.ok, hdr.tag, descriptorWords c⟩ ∨ t.lp.answer = some ⟨.ok, hdr'.tag, descriptorWords c⟩))

/-- R142, R143, R145: an opening without a response key is NO_KEY, under another epoch STALE_KEY; one whose tag fails,
or whose result is undefined, is FORGED, which counts, posts FORGED and suspends the intake at the forged limit. So is a
record that is an authentic one with its header changed (R138). Whether a tag passes and what is deciphered is else the
cipher's own (log entry 7). -/
def Obligations.RejectedOpeningsTouchOnlyTheIntake : Prop :=
  ∀ (s : State) (j : OpenJob), s.run = .running → s.engine.job = some (.opening j) → j.record.length = 48 →
    let number := fieldAt j.record 0 4
    let idle := { s.engine with job := none }
    let keyOf := fun (k : ResponseKey) (record : List Byte) =>
      Config.deriveKey k.key .response (fieldAt record 0 4) (fieldAt record 4 1) (fieldAt record 5 3)
    let passes := fun (k : ResponseKey) (record : List Byte) =>
      Config.tagPasses (keyOf k record) (slice record 0 32) (slice record 32 16) = true
    let altered := fun (k : ResponseKey) => ∃ genuine : List Byte, genuine.length = 48 ∧ passes k genuine ∧
      genuine.take 16 ≠ j.record.take 16 ∧ genuine.drop 16 = j.record.drop 16
    let count := min 255 (s.intake.forged + 1)
    (j.key = none →
      exec .openCompletion s = .next { s with
        engine := idle, intake := { s.intake with last := some (.noKey, number) } }) ∧
    (∀ k, j.key = some k → fieldAt j.record 8 2 ≠ k.epoch →
      exec .openCompletion s = .next { s with
        engine := idle, intake := { s.intake with last := some (.staleKey, number) } }) ∧
    (∀ k, j.key = some k → fieldAt j.record 8 2 = k.epoch →
      let result := (((decipher (keyOf k j.record) (slice j.record 16 16))[0]?).getD 0).toNat
      ∃ t, exec .openCompletion s = .next t ∧
        (¬ passes k j.record ∨ altered k ∨ result = 0 ∨ 3 < result →
          ((s.cfg.forgedLimit = 0 ∨ count < s.cfg.forgedLimit ∨ s.intake.suspended = true) →
            t = { s with
              engine := idle, intake := { s.intake with forged := count, last := some (.forged, number) }
              up := s.up.signalled .forged }) ∧
          (0 < s.cfg.forgedLimit → s.cfg.forgedLimit ≤ count → s.intake.suspended = false →
            t = { s with
              engine := idle
              intake := { s.intake with forged := count, suspended := true, last := some (.forged, number) }
              up := (s.up.signalled .forged).signalled .suspended })))

/-- R144, R19, R57: an authentic response is delivered to the lane that waits for its record number and lane sequence,
whose entry loses its awaiting flag; any other authentic response is LATE. Both are signs. Its key is the per-record key
of no wrapping key for those values. Whether a response is authentic is the cipher's own (log entry 7). -/
def Obligations.AuthenticResponseIsValidOrLate : Prop :=
  ∀ (s : State) (j : OpenJob) (k : ResponseKey), s.run = .running → s.engine.job = some (.opening j) →
    j.record.length = 48 → j.key = some k → fieldAt j.record 8 2 = k.epoch →
    let number := fieldAt j.record 0 4
    let lane := fieldAt j.record 4 1
    let seq := fieldAt j.record 5 3
    let key := Config.deriveKey k.key .response number lane seq
    let plain := decipher key (slice j.record 16 16)
    let idle := { s with engine := { s.engine with job := none } }
    ∃ t, exec .openCompletion s = .next t ∧ plain.length = 16 ∧
      (∀ wrapping, key ≠ Config.deriveKey wrapping .record number lane seq) ∧
      ∀ res : AcquirerResult, Config.tagPasses key (slice j.record 0 32) (slice j.record 32 16) = true →
        ((plain[0]?).getD 0).toNat = (match res with | .approved => 1 | .declined => 2 | .refer => 3) →
        (∀ (l : Fin 16) (a : Awaited) (timer : Nat), l.val = lane → s.lanes[l].mode = .waitResponse a timer →
          a.number = number → a.laneSeq = seq →
          t = ({ idle with
            lanes := s.lanes.set l { s.lanes[l] with
              mode := .answered ⟨number, res, slice plain 1 6, slice plain 7 6⟩, attention := true }
            store := { s.store with
              directory := updEntry number (fun e => { e with awaiting := false }) s.store.directory }
            intake := { s.intake with last := some (.valid, number) }
            lp := s.lp.signalled .lane }).linkSign) ∧
        ((∀ (l : Fin 16) (a : Awaited) (timer : Nat), l.val = lane → s.lanes[l].mode = .waitResponse a timer →
            a.number ≠ number ∨ a.laneSeq ≠ seq) →
          t = ({ idle with
            intake := { s.intake with late := min 255 (s.intake.late + 1), last := some (.late, number) }
            up := s.up.signalled .late }).linkSign)

/-! ### The record store: offers, ring reads, confirmation -/

/-- R90, R91, R93: an OFFER read answers WINDOW_FULL at 8 OFFERED entries and NONE without a candidate; else the
candidate, the oldest awaiting one or else the oldest, becomes OFFERED under the offer timeout and its descriptor is the
answer; a REWRAPPING candidate holds the read. -/
def Obligations.OfferReadHandsOutTheCandidate : Prop :=
  ∀ (index : Word) (hdr : Header) (s : State), s.Open .up →
    let offerable := fun (e : Entry) => e.state = .held ∨ e.state = .rewrapping .held
    (8 ≤ offeredCount s.store.directory →
      exec (.offer index hdr) s = .next (s.updPort .up fun q => q.answered .empty hdr [1])) ∧
    (offeredCount s.store.directory < 8 → (∀ e ∈ s.store.directory, ¬ offerable e) →
      exec (.offer index hdr) s = .next (s.updPort .up fun q => q.answered .empty hdr [0])) ∧
    (∀ (older younger : List Entry) (e : Entry), offeredCount s.store.directory < 8 →
      s.store.directory = older ++ e :: younger → (∀ x ∈ older, x.number ≠ e.number) →
      ((e.awaiting = true ∧ ∀ x ∈ older, ¬ (offerable x ∧ x.awaiting = true)) ∨
        (e.awaiting = false ∧ (∀ x ∈ older, ¬ offerable x) ∧ ∀ x ∈ younger, ¬ (offerable x ∧ x.awaiting = true))) →
      (e.state = .held →
        exec (.offer index hdr) s =
          .next (({ s with store := { s.store with
            directory := older ++ { e with state := .offered s.cfg.offerTimeout } :: younger } }).updPort .up fun q =>
              q.answered .ok hdr (descriptorWords e))) ∧
      (e.state = .rewrapping .held →
        exec (.offer index hdr) s = .next (s.updPort .up fun q =>
          { q with held := some ⟨.read ⟨.offer, index, hdr⟩, s.cfg.holdLimit, true⟩, sending := false })))

/-- R94: a RING read returns the ring's bytes, the lower address in the high byte, advancing around the ring or within
the 8-word chunk, if every slot it touches belongs to an OFFERED entry (uplink port) or the SPILLING entry (lane port).
Any other is recorded and answered DENIED. Nothing but the port changes. A read of no word: log entry 16. -/
def Obligations.RingReadNeedsReadableSlots : Prop :=
  ∀ (p : PortId) (index : Word) (hdr : Header) (count : Nat) (s : State), s.Open p → count ≤ 64 →
    let start := index.toNat * 16 + hdr.offset.toNat
    let word := fun (k : Nat) =>
      if hdr.form = .linear then (start + k) % 65536 else start / 8 * 8 + (start + k) % 8
    let readable := fun (slot : Nat) => ∃ e ∈ s.store.directory, e.owns slot = true ∧
      match p with
      | .up => ∃ timer, e.state = .offered timer
      | .lp => e.state = .spilling
    let permitted := index.toNat ≤ 4095 ∧ hdr.offset.toNat ≤ 15 ∧ ∀ k : Nat, k < count → readable (word k / 16)
    (permitted → exec (.ringRead p index hdr count) s = .next (s.updPort p fun q =>
      q.answered .ok hdr ((List.range count).map fun k =>
        Memory.read s.store.ring (2 * word k) ++ Memory.read s.store.ring (2 * word k + 1)))) ∧
    (¬ permitted → exec (.ringRead p index hdr count) s = .next (s.updPort p fun q =>
      (q.refused (refusal ringWindow index hdr .denied)).answered .denied hdr []))

/-- R96, R86, R115, R120: an ACK of an entry in HELD, OFFERED, PARKED, REWRAPPING or SPILLING confirms it, releases its
charge, turns a spill reservation of it GONE, tells the key table (R166) and reclaims from the head. R97: an ACK of a
number that names no custody entry is released from the spill list, or refused NOT_HELD, as is an ACK of a WRITING
entry. R131: each is a sign. -/
def Obligations.AckReleasesCharges : Prop :=
  (∀ (index : Word) (hdr : Header) (number : BitVec 32) (extra : List DataWord) (s s' : State) (e : Entry),
    s.Applies .up (confirmWrite index hdr ackWord number extra) s' →
    findEntry number.toNat s.store.directory = some e →
    e.state ≠ .writing → e.state ≠ .spilled → e.state ≠ .confirmed →
    let d := updEntry e.number (fun x => { x with state := .confirmed, charge := 0, awaiting := false })
      s.store.directory
    let gone := d.takeWhile fun x => x.state.out
    let rest := d.dropWhile fun x => x.state.out
    ∃ t, exec (.ack .apply index hdr number extra) s = .next t ∧
      t = { s' with
        store := t.store, meter := s.meter - e.charge, spill := t.spill, keys := t.keys
        link := s.link.sign s.cfg.recoverThreshold, up := { s'.up with events := t.up.events } } ∧
      t.spill = { s.spill with
        reservation := if e.state = .spilling then some ⟨e.number, false⟩ else s.spill.reservation } ∧
      t.store = { s.store with
        directory := rest
        headSlot :=
          if gone = [] then s.store.headSlot
          else if rest = [] then s.store.tailSlot
          else (s.store.headSlot + (gone.map Entry.slots).sum) % 4096
        armed := t.store.armed } ∧
      (gone = [] → t.store.armed = s.store.armed) ∧
      (gone ≠ [] → t.store.armed = (s.store.armed || bothLow t.store s.cfg)) ∧
      s.keys.Resettled t.keys d ∧
      (s.keys.Retires d → t.up = ({ s' with up := s'.up.signalled .retired }.linkSign).up) ∧
      (¬ s.keys.Retires d → t.up = s'.linkSign.up)) ∧
  (∀ (index : Word) (hdr : Header) (number : BitVec 32) (extra : List DataWord) (s s' : State),
    s.Applies .up (confirmWrite index hdr ackWord number extra) s' →
    let n := number.toNat
    let refused := (s'.updPort .up fun q => q.refused (refusal confirmWindow index hdr .notHeld)).linkSign
    ((∃ e, findEntry n s.store.directory = some e ∧ e.state = .writing) →
      exec (.ack .apply index hdr number extra) s = .next refused) ∧
    ((∀ e, findEntry n s.store.directory = some e → e.state = .spilled ∨ e.state = .confirmed) →
      (∀ (before after : List SpillItem) (x : SpillItem), s.spill.list = before ++ x :: after → x.number = n →
        (∀ y ∈ before, y.number ≠ n) →
        exec (.ack .apply index hdr number extra) s = .next ({ s' with
          spill := { s.spill with list := before ++ after }, meter := s.meter - x.charge }).linkSign) ∧
      ((∀ x ∈ s.spill.list, x.number ≠ n) →
        exec (.ack .apply index hdr number extra) s = .next refused)))

/-- R98, R99, R100: a NAK or the offer timer's expiry returns an OFFERED entry to HELD with OFFER_READY, or at the
attempt limit to PARKED with PARKED, its attempts one higher up to 15; UNPARK makes a PARKED entry HELD with no
attempts. A returned entry lets the campaign look (R167). The commands are refused NOT_OFFERED and NOT_PARKED in any
other state. -/
def Obligations.ReturnsParkAtTheAttemptLimit : Prop :=
  ∀ (index : Word) (hdr : Header) (number : BitVec 32) (extra : List DataWord) (s s' : State),
    let n := number.toNat
    let back := fun (t : State) (e : Entry) =>
      let attempts := min 15 (e.attempts + 1)
      let d := updEntry e.number (fun x => { x with
        attempts := min 15 (x.attempts + 1)
        state := if s.cfg.attemptLimit ≤ min 15 (x.attempts + 1) then .parked else .held }) s.store.directory
      { t with
        store := { s.store with directory := d }
        keys := { s.keys with campaign := s.keys.lookedOver d }
        up := t.up.signalled (if s.cfg.attemptLimit ≤ attempts then .parked else .offerReady) }
    (∀ (e : Entry) (timer : Nat), findEntry n s.store.directory = some e → e.state = .offered timer →
      (s.Applies .up (confirmWrite index hdr nakWord number extra) s' →
        exec (.nak .apply index hdr number extra) s = .next (back s' e)) ∧
      (s.run = .running → exec (.offerTimerExpiry number) s = .next (back s e))) ∧
    ((∀ (e : Entry) (timer : Nat), findEntry n s.store.directory = some e → e.state ≠ .offered timer) →
      s.Applies .up (confirmWrite index hdr nakWord number extra) s' →
      exec (.nak .apply index hdr number extra) s =
        .next (s'.updPort .up fun q => q.refused (refusal confirmWindow index hdr .notOffered))) ∧
    (s.Applies .up (confirmWrite index hdr unparkWord number extra) s' →
      (∀ e, findEntry n s.store.directory = some e → e.state = .parked →
        exec (.unpark .apply index hdr number extra) s = .next { s' with
          store := { s.store with
            directory := updEntry n (fun x => { x with state := .held, attempts := 0 }) s.store.directory }
          up := s'.up.signalled .offerReady }) ∧
      ((∀ e, findEntry n s.store.directory = some e → e.state ≠ .parked) →
        exec (.unpark .apply index hdr number extra) s =
          .next (s'.updPort .up fun q => q.refused (refusal confirmWindow index hdr .notParked))))

/-! ### Spill -/

/-- R108 to R111: a SPILL read is DENIED while use is at or below both low marks, BUSY while an entry is SPILLING, EMPTY
without a candidate or with a charged one and a full list, held on a REWRAPPING candidate; else the oldest HELD or
PARKED entry becomes SPILLING and reserved and its descriptor is the answer. -/
def Obligations.SpillReadReservesTheOldestEntry : Prop :=
  ∀ (index : Word) (hdr : Header) (s : State), s.Open .lp →
    let d := s.store.directory
    let above := s.cfg.lowSlot < s.store.slotsUsed ∨ s.cfg.lowEntry < s.store.entriesUsed
    let candidate := fun (e : Entry) => e.state = .held ∨ e.state = .parked ∨ ∃ p, e.state = .rewrapping p
    let answered := fun (t : State) (status : ReadStatus) (words : List Word) =>
      t.updPort .lp fun q => q.answered status hdr words
    (¬ above → exec (.spill index hdr) s = .next (s.updPort .lp fun q =>
      (q.refused (refusal spillWindow index hdr .denied)).answered .denied hdr [])) ∧
    (above → (∃ e ∈ d, e.state = .spilling) → exec (.spill index hdr) s = .next (answered s .busy [])) ∧
    (above → (∀ e ∈ d, e.state ≠ .spilling) →
      ((∀ e ∈ d, ¬ candidate e) → exec (.spill index hdr) s = .next (answered s .empty [0])) ∧
      (∀ (older younger : List Entry) (e : Entry), d = older ++ e :: younger → (∀ x ∈ older, ¬ candidate x) →
        (∀ x ∈ older, x.number ≠ e.number) →
        ((∃ p, e.state = .rewrapping p) → exec (.spill index hdr) s = .next (s.updPort .lp fun q =>
          { q with held := some ⟨.read ⟨.spill, index, hdr⟩, s.cfg.holdLimit, true⟩, sending := false })) ∧
        ((e.state = .held ∨ e.state = .parked) → 0 < e.charge → 256 ≤ s.spill.list.length →
          exec (.spill index hdr) s = .next (answered s .empty [2])) ∧
        ((e.state = .held ∨ e.state = .parked) → (e.charge = 0 ∨ s.spill.list.length < 256) →
          exec (.spill index hdr) s = .next (answered { s with
            store := { s.store with directory := older ++ { e with state := .spilling } :: younger }
            spill := { s.spill with reservation := some ⟨e.number, true⟩ } } .ok (descriptorWords e)))))

/-- R113, R121, R86, R89: SPILL_DONE on the LIVE reservation makes its entry SPILLED and moves its charge to the spill
list, appended or merged into the item of the same number, tells the key table (R166) and reclaims from the head,
where a reclaim may arm the high-mark flag again (R89); the meter does not change. That an entry without a charge
leaves an item of its number as it was is the model's choice: log entry 35. -/
def Obligations.SpillDoneMovesTheCharge : Prop :=
  ∀ (index : Word) (hdr : Header) (number : BitVec 32) (extra : List DataWord) (s s' : State) (e : Entry),
    s.Applies .lp (spillWrite index hdr spillDoneWord number extra) s' →
    s.spill.reservation = some ⟨number.toNat, true⟩ → findEntry number.toNat s.store.directory = some e →
    e.state = .spilling →
    let d := updEntry e.number (fun x => { x with state := .spilled, charge := 0 }) s.store.directory
    let gone := d.takeWhile fun x => x.state.out
    let rest := d.dropWhile fun x => x.state.out
    ∃ t, exec (.spillDone .apply index hdr number extra) s = .next t ∧
      t = { s' with
        store := { s.store with
          directory := rest
          headSlot :=
            if gone = [] then s.store.headSlot
            else if rest = [] then s.store.tailSlot
            else (s.store.headSlot + (gone.map Entry.slots).sum) % 4096
          armed := t.store.armed }
        spill := t.spill, keys := t.keys, up := { s.up with events := t.up.events } } ∧
      (gone = [] → t.store.armed = s.store.armed) ∧
      (gone ≠ [] → t.store.armed = (s.store.armed || bothLow t.store s.cfg)) ∧
      t.spill.reservation = none ∧
      (e.charge = 0 → t.spill.list = s.spill.list) ∧
      (0 < e.charge → (∀ x ∈ s.spill.list, x.number ≠ e.number) →
        t.spill.list = s.spill.list ++ [⟨e.number, e.charge, e.batch⟩]) ∧
      (∀ (before after : List SpillItem) (x : SpillItem), 0 < e.charge → s.spill.list = before ++ x :: after →
        x.number = e.number → (∀ y ∈ before, y.number ≠ e.number) →
        t.spill.list = before ++ ⟨x.number, x.charge + e.charge, e.batch⟩ :: after) ∧
      s.keys.Resettled t.keys d ∧ (s.keys.Retires d → t.up = s.up.signalled .retired) ∧
      (¬ s.keys.Retires d → t.up = s.up)

/-- R112, R114: SPILL_CANCEL on the LIVE reservation returns its SPILLING entry to HELD with OFFER_READY, and the
campaign looks (R167); a spill command whose number is not that of a LIVE reservation is refused GONE, which removes
the reservation, or NOT_SPILLING. The overlap of the rows: log entry 26. -/
def Obligations.SpillCommandsFollowTheReservation : Prop :=
  ∀ (index : Word) (hdr : Header) (number : BitVec 32) (extra : List DataWord) (s s' : State),
    let n := number.toNat
    let gone := .next (({ s' with spill := { s.spill with reservation := none } }).updPort .lp fun q =>
      q.refused (refusal spillWindow index hdr .gone))
    let notSpilling := .next (s'.updPort .lp fun q => q.refused (refusal spillWindow index hdr .notSpilling))
    let noMatch := ∀ live, s.spill.reservation ≠ some ⟨n, live⟩
    (s.Applies .lp (spillWrite index hdr spillCancelWord number extra) s' →
      (∀ e, s.spill.reservation = some ⟨n, true⟩ → findEntry n s.store.directory = some e → e.state = .spilling →
        let d := updEntry n (fun x => { x with state := .held }) s.store.directory
        exec (.spillCancel .apply index hdr number extra) s = .next { s' with
          store := { s.store with directory := d }
          spill := { s.spill with reservation := none }
          keys := { s.keys with campaign := s.keys.lookedOver d }
          up := s.up.signalled .offerReady }) ∧
      (s.spill.reservation = some ⟨n, false⟩ → exec (.spillCancel .apply index hdr number extra) s = gone) ∧
      (noMatch → exec (.spillCancel .apply index hdr number extra) s = notSpilling)) ∧
    (s.Applies .lp (spillWrite index hdr spillDoneWord number extra) s' →
      (s.spill.reservation = some ⟨n, false⟩ → exec (.spillDone .apply index hdr number extra) s = gone) ∧
      (noMatch → exec (.spillDone .apply index hdr number extra) s = notSpilling)) ∧
    (∀ (command : Word), command = spillDoneWord ∨ command = spillCancelWord →
      s.Applies .lp (spillWrite index hdr command number extra) s' →
      let words := (spillWrite index hdr command number extra).words
      (s.spill.reservation = some ⟨n, false⟩ → exec (.spillCommandRefused .apply index hdr words) s = gone) ∧
      (noMatch → exec (.spillCommandRefused .apply index hdr words) s = notSpilling))

/-! ### The response intake and the shop commands -/

/-- R139, R141, R181: the header of an INTAKE write claims a queue place, which its data words fill, and an intake
place, or is held while either is lacking; when applied it is dropped BAD_FORMAT under 24 words or SUSPENDED, or its
first 24 words become the youngest record. The places as queue and count: log entry 18. -/
def Obligations.IntakeWriteClaimsThenQueuesRecord : Prop :=
  (∀ (index : Word) (hdr : Header) (words : List DataWord) (s : State), s.run = .running → s.up.held = none →
    words.length ≤ 64 →
    let room := s.up.posted.length < 4 ∧ s.intake.queue.length + s.intake.claimed < 4
    (room → exec (.intakeClaim index ⟨hdr, words⟩) s = .next { s with
      up := { s.up with posted := s.up.posted ++ [⟨intakeWindow, index, hdr, words⟩], sending := false }
      intake := { s.intake with claimed := s.intake.claimed + 1 } }) ∧
    (¬ room → exec (.intakeClaim index ⟨hdr, words⟩) s = .next { s with
      up := { s.up with
        held := some ⟨.intake ⟨intakeWindow, index, hdr, words⟩, s.cfg.holdLimit, false⟩, sending := false } })) ∧
  (∀ (index : Word) (hdr : Header) (words : List DataWord) (rest : List PostedWrite) (s : State),
    s.run = .running → s.up.held = none → s.up.posted = ⟨intakeWindow, index, hdr, words⟩ :: rest → words.length ≤ 64 →
    let t := { s with
      up := { s.up with posted := rest }, intake := { s.intake with claimed := s.intake.claimed - 1 } }
    let drop := fun (reason : Reason) =>
      t.updPort .up fun q => q.refused (refusal intakeWindow index hdr reason)
    (words.length < 24 → exec (.intakeWrite words) s = .next (drop .badFormat)) ∧
    (24 ≤ words.length → s.intake.suspended = true → exec (.intakeWrite words) s = .next (drop .suspended)) ∧
    (24 ≤ words.length → s.intake.suspended = false → exec (.intakeWrite words) s = .next { t with
      intake := { t.intake with
        queue := s.intake.queue ++
          [(words.take 24).flatMap fun w => [w.value.extractLsb' 8 8, w.value.extractLsb' 0 8]] } }))

/-- R152, R146, R134, R136: CLOSE sets close-pending or is refused BUSY; RESUME clears the suspension and both counts;
LINK_DOWN makes OUTAGE and LINK_UP makes CONTACT with both counts 0, and a change of state posts LINK. -/
def Obligations.ShopCommandsReachTheirBlocks : Prop :=
  ∀ (index : Word) (hdr : Header) (extra : List DataWord) (s s' : State),
    (s.Applies .up (shopWrite index hdr closeWord extra) s' →
      (s.batch.closePending = false → exec (.close .apply index hdr extra) s = .next { s' with
        batch := { s.batch with closePending := true } }) ∧
      (s.batch.closePending = true → exec (.close .apply index hdr extra) s =
        .next (s'.updPort .up fun q => q.refused (refusal shopCmdWindow index hdr .busy)))) ∧
    (s.Applies .up (shopWrite index hdr resumeWord extra) s' →
      exec (.resume .apply index hdr extra) s = .next { s' with
        intake := { s.intake with suspended := false, forged := 0, late := 0 } }) ∧
    (s.Applies .up (shopWrite index hdr linkDownWord extra) s' →
      exec (.linkDown .apply index hdr extra) s = .next { s' with
        link := ⟨.outage, 0, 0⟩
        up := if s.link.state = .outage then s'.up else s'.up.signalled .link }) ∧
    (s.Applies .up (shopWrite index hdr linkUpWord extra) s' →
      exec (.linkUp .apply index hdr extra) s = .next { s' with
        link := ⟨.contact, 0, 0⟩
        up := if s.link.state = .contact then s'.up else s'.up.signalled .link })

/-- R132, R133, R136: a run of misses takes CONTACT or DOUBT to OUTAGE exactly at the miss threshold, and a run of
signs takes OUTAGE or DOUBT to CONTACT exactly at the recover threshold, each at every run length short of it raising
its own count and clearing the other. A miss undoes the signs counted in OUTAGE, and a sign changes nothing in
CONTACT. A miss or sign that reaches the part's monitor posts LINK on the uplink port if it changes the link state,
and only then. -/
def Obligations.RunsOfMissesAndSignsMoveTheLink : Prop :=
  (∀ (threshold n : Nat), 1 ≤ threshold →
    let misses := fun (l : Link) => Nat.repeat (fun l : Link => l.miss threshold) n l
    let signs := fun (l : Link) => Nat.repeat (fun l : Link => l.sign threshold) n l
    misses ⟨.contact, 0, 0⟩ =
      (if n = 0 then ⟨.contact, 0, 0⟩ else if n < threshold then ⟨.doubt, n, 0⟩ else ⟨.outage, 0, 0⟩) ∧
    signs ⟨.outage, 0, 0⟩ = (if n < threshold then ⟨.outage, 0, n⟩ else ⟨.contact, 0, 0⟩) ∧
    (∀ m : Nat, 1 ≤ m → n < threshold → (signs ⟨.outage, 0, 0⟩).miss m = ⟨.outage, 0, 0⟩) ∧
    (∀ m k : Nat,
      misses ⟨.doubt, m, k⟩ =
        (if n = 0 then ⟨.doubt, m, k⟩ else if m + n < threshold then ⟨.doubt, m + n, 0⟩ else ⟨.outage, 0, 0⟩) ∧
      signs ⟨.doubt, m, k⟩ =
        (if n = 0 then ⟨.doubt, m, k⟩ else if k + n < threshold then ⟨.doubt, 0, k + n⟩ else ⟨.contact, 0, 0⟩)) ∧
    misses ⟨.outage, 0, 0⟩ = ⟨.outage, 0, 0⟩ ∧ signs ⟨.contact, 0, 0⟩ = ⟨.contact, 0, 0⟩) ∧
  (∀ s : State,
    let missed := s.link.miss s.cfg.missThreshold
    let signed := s.link.sign s.cfg.recoverThreshold
    s.linkMiss = { s with
      link := missed, up := if missed.state = s.link.state then s.up else s.up.signalled .link } ∧
    s.linkSign = { s with
      link := signed, up := if signed.state = s.link.state then s.up else s.up.signalled .link })

/-- R165, R166: ROLL is refused BUSY while a key is RETIRING and NO_KEY without a NEXT; else the NEXT becomes ACTIVE
with no uses and no wear flag and the ACTIVE, if any, becomes RETIRING and its campaign begins (R167), or is erased at
once with RETIRED if no custody entry carries its epoch. Nothing else of the key table changes. -/
def Obligations.RollActivatesTheNextKey : Prop :=
  ∀ (index : Word) (hdr : Header) (extra : List DataWord) (s s' : State),
    s.Applies .up (shopWrite index hdr rollWord extra) s' →
    let refused := fun (reason : Reason) =>
      s'.updPort .up fun q => q.refused (refusal shopCmdWindow index hdr reason)
    (s.keys.find .retiring ≠ none → exec (.roll .apply index hdr extra) s = .next (refused .busy)) ∧
    (s.keys.find .retiring = none → s.keys.find .next = none →
      exec (.roll .apply index hdr extra) s = .next (refused .noKey)) ∧
    (∀ v, s.keys.find .retiring = none → s.keys.find .next = some v →
      ∃ t, exec (.roll .apply index hdr extra) s = .next t ∧
        t = { s' with keys := t.keys, up := t.up } ∧ s.keys.Rolled t.keys s.store.directory ∧
        t.keys.find .active = some { v with role := .active, uses := 0, wear := false } ∧
        t.keys.pendingRoll = false ∧ t.keys.highest = s.keys.highest ∧
        (s.keys.active = none → t.keys.find .retiring = none ∧ t.up = s'.up) ∧
        (∀ w, s.keys.active = some w →
          let n := custodyCount w.epoch s.store.directory
          (n = 0 → t.keys.find .retiring = none ∧ t.keys.retiring = 0 ∧ t.up = s'.up.signalled .retired) ∧
          (0 < n → t.keys.find .retiring = some { w with role := .retiring } ∧ t.keys.retiring = n ∧ t.up = s'.up)))

/-! ### Control items and the ports -/

/-- R88, R89, R180: WATERMARKS stores the four marks, each brought into its range and a low mark at most its high mark,
and then posts STORE_HIGH on both ports and spends the flag, or arms it; with fewer than 4 words it is dropped
BAD_FORMAT. -/
def Obligations.WatermarksAreClampedAndEvaluated : Prop :=
  ∀ (index : Word) (hdr : Header) (words : List DataWord) (s s' : State),
    s.Applies .up ⟨watermarksItem, index, hdr, words⟩ s' →
    (words.length < 4 → exec (.watermarksWrite .apply index hdr words) s =
      .next (s'.updPort .up fun q => q.refused (refusal watermarksItem index hdr .badFormat))) ∧
    (∀ (hs ls he le : DataWord) (more : List DataWord), words = hs :: ls :: he :: le :: more →
      let highSlot := max 1 (min 4095 hs.value.toNat)
      let highEntry := max 1 (min 511 he.value.toNat)
      let cfg := { s.cfg with
        highSlot := highSlot
        lowSlot := min highSlot (max 1 (min 4095 ls.value.toNat))
        highEntry := highEntry
        lowEntry := min highEntry (max 1 (min 511 le.value.toNat)) }
      let high := cfg.highSlot ≤ s.store.slotsUsed ∨ cfg.highEntry ≤ s.store.entriesUsed
      let low := s.store.slotsUsed < cfg.lowSlot ∧ s.store.entriesUsed < cfg.lowEntry
      exec (.watermarksWrite .apply index hdr words) s =
        .next (if s.store.armed = true ∧ high then
            { s' with
              cfg := cfg, store := { s.store with armed := false }, lp := s'.lp.signalled .storeHigh
              up := s'.up.signalled .storeHigh }
          else { s' with cfg := cfg, store := { s.store with armed := s.store.armed || decide low } }))

/-- R162, R163, R164: a use limit is stored in 1 to 1,048,576 and, unless it makes a roll, changes no key, epoch or use
count. At the wear point, the limit less its sixteenth, a clear wear flag becomes SET with KEY_WEAR, and a SET one
leaves the event as it was. A limit raised above the count ends spending and clears the pending-roll flag. One that
brings the limit to or below the count posts KEY_SPENT on both ports if no NEXT is loaded, sets the pending-roll flag if
a key is RETIRING, and else rolls at once (R165, R166). -/
def Obligations.UseLimitDecidesWearAndSpending : Prop :=
  ∀ (index : Word) (hdr : Header) (words : List DataWord) (s s' : State),
    s.Applies .up ⟨useLimitItem, index, hdr, words⟩ s' →
    (words.length < 2 → exec (.useLimitWrite .apply index hdr words) s =
      .next (s'.updPort .up fun q => q.refused (refusal useLimitItem index hdr .badFormat))) ∧
    (∀ (hi lo : DataWord) (more : List DataWord), words = hi :: lo :: more →
      let limit := max 1 (min 1048576 (hi.value.toNat * 65536 + lo.value.toNat))
      ∃ t, exec (.useLimitWrite .apply index hdr words) s = .next t ∧ t.keys.useLimit = limit ∧
        t = { s' with
          keys := t.keys, lp := { s'.lp with events := t.lp.events }, up := { s'.up with events := t.up.events } } ∧
        (s.keys.active = none → t.keys = { s.keys with useLimit := limit } ∧ t.up = s'.up ∧ t.lp = s'.lp) ∧
        (∀ w, s.keys.active = some w →
          let worn := decide (limit - limit / 16 ≤ w.uses)
          let spends := limit ≤ w.uses ∧ w.uses < s.keys.useLimit
          let rolls := spends ∧ s.keys.find .next ≠ none ∧ s.keys.find .retiring = none
          let bit := fun (b : Bool) (e : Event) => if b then e.bit else 0
          let tested : KeyTable := { s.keys with
            useLimit := limit
            slots := s.keys.slots.map fun o => o.map fun v =>
              if v.role = .active then { v with wear := v.wear || (worn && !w.wear) } else v }
          (w.wear = false → worn = true → t.up.events &&& Event.keyWear.bit ≠ 0) ∧
          (w.wear = true → t.up.events &&& Event.keyWear.bit = s'.up.events &&& Event.keyWear.bit) ∧
          (worn = false → t.up = s'.up) ∧
          (rolls → tested.Rolled t.keys s.store.directory) ∧
          (¬ rolls → t.keys = { tested with
            pendingRoll :=
              if w.uses < limit ∧ s.keys.useLimit ≤ w.uses then false
              else if spends ∧ s.keys.find .next ≠ none then true
              else s.keys.pendingRoll }) ∧
          t.lp.events = s'.lp.events ||| bit (spends ∧ s.keys.find .next = none) .keySpent ∧
          t.up.events = s'.up.events ||| bit (worn = true ∧ w.wear = false) .keyWear |||
            bit (spends ∧ s.keys.find .next = none) .keySpent |||
            bit (rolls ∧ custodyCount w.epoch s.store.directory = 0) .retired ∧
          (w.uses < limit → s.keys.useLimit ≤ w.uses → t.keys.pendingRoll = false) ∧
          (spends → s.keys.find .next = none →
            t.up.events &&& Event.keySpent.bit ≠ 0 ∧ t.lp.events &&& Event.keySpent.bit ≠ 0) ∧
          (spends → s.keys.find .next ≠ none → s.keys.find .retiring ≠ none → t.keys.pendingRoll = true) ∧
          (∀ v, spends → s.keys.find .next = some v → s.keys.find .retiring = none →
            let n := custodyCount w.epoch s.store.directory
            t.keys.find .active = some { v with role := .active, uses := 0, wear := false } ∧
              t.keys.pendingRoll = false ∧
              (0 < n → t.keys.find .retiring = some { w with role := .retiring, wear := true } ∧ t.keys.retiring = n) ∧
              (n = 0 → t.keys.find .retiring = none ∧ t.up.events &&& Event.retired.bit ≠ 0))))

/-- R16, R59, R101, R123, R124, R135, R145, R180, R182: a configuration item is stored brought into its range, words
beyond it are ignored, and a write with fewer words is dropped BAD_FORMAT. A new rewrap share also bounds the share
counter. -/
def Obligations.ConfigurationIsStoredInRange : Prop :=
  ∀ (item : ConfigItem) (index : Word) (hdr : Header) (words : List DataWord) (s s' : State),
    s.Applies .up ⟨configTarget item, configIndex item index, hdr, words⟩ s' →
    let need := match item with | .ceiling => 2 | .riskEntry _ => 3 | _ => 1
    let word := fun (i : Nat) => ((words[i]?).map fun w => w.value.toNat).getD 0
    (words.length < need → exec (.configWrite .apply item index hdr words) s = .next (s'.updPort .up fun q =>
      q.refused (refusal (configTarget item) (configIndex item index) hdr .badFormat))) ∧
    (need ≤ words.length → exec (.configWrite .apply item index hdr words) s = .next { s' with
      cfg := match item with
        | .onlineTimeout => { s.cfg with onlineTimeout := max 1 (min 60 (word 0)) }
        | .offerTimeout => { s.cfg with offerTimeout := max 5 (min 255 (word 0)) }
        | .attemptLimit => { s.cfg with attemptLimit := max 1 (min 15 (word 0)) }
        | .ceiling => { s.cfg with ceiling := min 2147483647 (word 0 * 65536 + word 1) }
        | .riskEntry c => { s.cfg with
          risk := s.cfg.risk.set c ⟨min 99999999 (word 0 * 65536 + word 1), word 2 / 256 % 32⟩ }
        | .missThreshold => { s.cfg with missThreshold := max 1 (min 15 (word 0)) }
        | .recoverThreshold => { s.cfg with recoverThreshold := max 1 (min 15 (word 0)) }
        | .forgedLimit => { s.cfg with forgedLimit := min 255 (word 0) }
        | .rewrapShare => { s.cfg with rewrapShare := max 1 (min 16 (word 0)) }
        | .holdLimit => { s.cfg with holdLimit := max 1 (min 255 (word 0)) }
      engine := match item with
        | .rewrapShare => { s.engine with share := min (max 1 (min 16 (word 0))) s.engine.share }
        | _ => s.engine })

/-- R186, R184: writing the event status clears the bits written as 1, writing the event mask replaces it within the
port's events, and any write of the write-status item clears it. The first two need 2 words. -/
def Obligations.PortItemsAreClearedAndReplaced : Prop :=
  ∀ (p : PortId) (hdr : Header) (words : List DataWord) (s s' : State),
    (s.Applies p ⟨eventStatusItem, portIndex p, hdr, words⟩ s' →
      (∀ hi lo more, words = hi :: lo :: more → exec (.eventStatusClear .apply p hdr words) s =
        .next (s'.updPort p fun q => { q with events := q.events &&& ~~~(hi.value ++ lo.value) })) ∧
      (words.length < 2 → exec (.eventStatusClear .apply p hdr words) s =
        .next (s'.updPort p fun q => q.refused (refusal eventStatusItem (portIndex p) hdr .badFormat)))) ∧
    (s.Applies p ⟨eventMaskItem, portIndex p, hdr, words⟩ s' →
      (∀ hi lo more, words = hi :: lo :: more → exec (.eventMaskWrite .apply p hdr words) s =
        .next (s'.updPort p fun q => { q with mask := (hi.value ++ lo.value) &&& portEvents p })) ∧
      (words.length < 2 → exec (.eventMaskWrite .apply p hdr words) s =
        .next (s'.updPort p fun q => q.refused (refusal eventMaskItem (portIndex p) hdr .badFormat)))) ∧
    (s.Applies p ⟨writeStatusItem, portIndex p, hdr, words⟩ s' →
      exec (.writeStatusClear .apply p hdr words) s =
        .next (s'.updPort p fun q => { q with lastRefusal := none, refusalCount := 0, truncated := false }))

/-- R179, R180, R191: a header with a code that names nothing, or whose index is out of range, is refused BAD_WINDOW,
and one that Table 11-2 or Table 11-3 does not give to its port for its direction, with an index in range, DENIED. Only
the port changes: a refused read is answered at once, and a refused write ends the answer of an earlier read (log entry
4). An admitted read of a control item with nothing posted ahead is answered with the item's contents and changes
nothing else: those of identity, spill, exposure, intake and batch status (R187, R116, R129, R148, R157) are written
out. That this command carries such a read is log entry 10, the order of the spill status log entry 33, and that any
other admitted header leaves the state as it was log entry 2: choices of the model. -/
def Obligations.HeadersAreRefusedByTheTables : Prop :=
  ∀ (p : PortId) (dir : Direction) (control : Bool) (code : BitVec 5) (index : Word) (hdr : Header) (count : Nat)
    (s : State), s.run = .running → (s.port p).held = none → count ≤ 64 →
    let c := code.toNat
    let known := if control then 1 ≤ c ∧ c ≤ 25 else 1 ≤ c ∧ c ≤ 9
    let allowed :=
      match control, dir, p with
      | false, .read, .lp => c = 2 ∨ c = 3 ∨ c = 4 ∨ c = 5
      | false, .read, .up => c = 5 ∨ c = 6
      | false, .write, .lp => c = 1 ∨ c = 2 ∨ c = 4
      | false, .write, .up => c = 7 ∨ c = 8 ∨ c = 9
      | true, .read, _ => True
      | true, .write, .lp => 23 ≤ c ∧ c ≤ 25 ∧ index = 0
      | true, .write, .up => (11 ≤ c ∧ c ≤ 22) ∨ (23 ≤ c ∧ c ≤ 25 ∧ index = 1)
    let inRange :=
      if control then (c = 3 → index.toNat ≤ 15) ∧ (c = 16 → index.toNat ≤ 7) ∧ (23 ≤ c → index.toNat ≤ 1)
      else c ≤ 3 → index.toNat ≤ 15
    let outcome := fun (reason : Reason) (status : ReadStatus) =>
      s.updPort p fun q =>
        let q' := q.refused (refusal ⟨control, code⟩ index hdr reason)
        match dir with
        | .read => q'.answered status hdr []
        | .write => { q' with sending := false }
    let command := Instr.headerRefusal p dir control code index hdr count
    (¬ known → exec command s = .next (outcome .badWindow .badWindow)) ∧
    (known → allowed → ¬ inRange → exec command s = .next (outcome .badWindow .badWindow)) ∧
    (known → ¬ allowed → inRange → exec command s = .next (outcome .denied .denied)) ∧
    (known → allowed → inRange → ¬ (dir = .read ∧ control = true) → exec command s = .next s) ∧
    (known → inRange → dir = .read → control = true → (s.port p).posted = [] → ∃ words,
      exec command s = .next (s.updPort p fun q => q.answered .ok hdr words) ∧
      words = wordsOf (s.itemBytes c index.toNat) ∧
      (c = 1 → words = [0x0410, BitVec.ofNat 16 (s.keys.identity / 65536), BitVec.ofNat 16 s.keys.identity, 0x1010,
        0x0002, 0x0001, 0x0008]) ∧
      (c = 5 →
        let n := (s.spill.reservation.map Reservation.number).getD 0
        words = [BitVec.ofNat 16 s.spill.list.length,
          (match s.spill.reservation with | none => 0#8 | some r => if r.live then 1#8 else 2#8) ++
            BitVec.ofNat 8 (n / 16777216),
          BitVec.ofNat 16 (n / 256), BitVec.ofNat 8 n ++ 0#8]) ∧
      (c = 6 → words = [BitVec.ofNat 16 (s.meter / 65536), BitVec.ofNat 16 s.meter,
        BitVec.ofNat 16 (s.cfg.ceiling / 65536), BitVec.ofNat 16 s.cfg.ceiling,
        (match s.link.state with | .contact => 0#8 | .doubt => 1#8 | .outage => 2#8) ++ BitVec.ofNat 8 s.link.misses,
        BitVec.ofNat 8 s.link.signs ++ 0#8]) ∧
      (c = 7 →
        let n := (s.intake.last.map Prod.snd).getD 0
        words = [BitVec.ofNat 8 s.intake.queue.length ++ BitVec.ofNat 8 s.intake.claimed,
          BitVec.ofNat 8 s.intake.suspended.toNat ++ BitVec.ofNat 8 s.intake.forged,
          BitVec.ofNat 8 s.intake.late ++ BitVec.ofNat 8 s.cfg.forgedLimit,
          (match s.intake.last.map Prod.fst with
            | none => 0#8
            | some .noKey => 1#8
            | some .staleKey => 2#8
            | some .forged => 3#8
            | some .valid => 4#8
            | some .late => 5#8) ++ BitVec.ofNat 8 (n / 16777216),
          BitVec.ofNat 16 (n / 256), BitVec.ofNat 8 n ++ 0#8]) ∧
      (c = 8 → words = [BitVec.ofNat 16 s.batch.number, BitVec.ofNat 16 (s.batch.first / 65536),
        BitVec.ofNat 16 s.batch.first, BitVec.ofNat 16 (s.batch.recordCount / 256),
        BitVec.ofNat 8 s.batch.recordCount ++ saturationByte s.batch.classes,
        BitVec.ofNat 8 s.batch.summaryLost.toNat ++ BitVec.ofNat 8 s.batch.closePending.toNat,
        BitVec.ofNat 16 (s.batch.shopSeq / 256), BitVec.ofNat 8 s.batch.shopSeq ++ 0#8]))

/-- R182: at the hold limit a held read is answered HELD_OUT, a held write is released, and the refusal is recorded with
reason HELD_OUT; nothing else changes. An INTAKE write and the read of a control item are held so too. -/
def Obligations.ExpiredHoldLeavesNoTrace : Prop :=
  ∀ (p : PortId) (count : Nat) (s : State) (limit : Nat) (b : Bool), s.run = .running → count ≤ 64 →
    let outcome := fun (t : Target) (index : Word) (hdr : Header) (f : Port → Port) =>
      exec (.holdLimitExpiry p count) s =
        .next (s.updPort p fun q => f ({ q with held := none, sending := false }.refused (refusal t index hdr .heldOut)))
    (∀ w, (s.port p).held = some ⟨.write w, limit, b⟩ → w.words.length ≤ 64 →
      outcome w.target w.index w.hdr id) ∧
    (∀ w, (s.port p).held = some ⟨.intake w, limit, b⟩ → w.words.length ≤ 64 →
      outcome w.target w.index w.hdr id) ∧
    (∀ r, (s.port p).held = some ⟨.read r, limit, b⟩ →
      outcome r.kind.target r.index r.hdr fun q => q.answered .heldOut r.hdr [])

/-! ### The key line -/

/-- R169, R170, R192: the sync byte opens a frame in HUNT; a frame whose CRC fails or whose length exceeds 64 is
answered BAD_FRAME, an unknown command BAD_COMMAND and a wrong payload size BAD_LENGTH, without execution. A gap or a
byte fault drops a partial frame, and the end of a reply returns to HUNT. The bytes of a command: log entry 21. -/
def Obligations.KeyLineAnswersEveryCompleteFrame : Prop :=
  ∀ s : State, s.run = .running →
    (s.keyLine = .hunt → exec .syncByte s = .next { s with keyLine := .receiving [] }) ∧
    (∀ frame, s.keyLine = .replying frame →
      exec .syncByte s = .next s ∧ exec .keyLineReplyEnd s = .next { s with keyLine := .hunt }) ∧
    (∀ bytes, s.keyLine = .receiving bytes →
      exec .keyLineGap s = .next { s with keyLine := .hunt } ∧
      exec .keyLineByteFault s = .next { s with keyLine := .hunt }) ∧
    (s.keyLine = .receiving [] → ∀ (command length : Byte) (payload more : List Byte) (high low : Byte),
      let head := command :: length :: payload
      let reply := fun (status : Byte) => { s with keyLine := .replying (frameBytes command [status]) }
      (64 < length.toNat → exec (.badFrame (command :: length :: more)) s = .next (reply 0x01)) ∧
      (length.toNat ≤ 64 → payload.length = length.toNat → bytesOfWord (crc head) ≠ [high, low] →
        exec (.badFrame (head ++ [high, low])) s = .next (reply 0x01)) ∧
      (length.toNat ≤ 64 → payload.length = length.toNat → bytesOfWord (crc head) = [high, low] →
        payloadSize command = none → exec (.badFrame (head ++ [high, low])) s = .next (reply 0x02)) ∧
      (∀ size, length.toNat ≤ 64 → payload.length = length.toNat → bytesOfWord (crc head) = [high, low] →
        payloadSize command = some size → payload.length ≠ size →
        exec (.badFrame (head ++ [high, low])) s = .next (reply 0x03)))

/-- R171, R172, R160, R161, R164: LOAD_TRANSPORT fills an EMPTY slot with a key whose check value agrees. LOAD_KEY makes
its five tests in order; an accepted NEXT enters the lowest EMPTY slot and raises the highest epoch, and where the
ACTIVE key is spent it rolls at once (R165) or, while a key is RETIRING, sets the pending-roll flag; an accepted
response key replaces the slot whole. -/
def Obligations.KeyLoadsPassTheirTests : Prop :=
  (∀ (key : Key) (check : CheckValue) (s : State), s.run = .running → s.keyLine = .receiving [] →
    let reply := fun (t : State) (status : Byte) => { t with keyLine := .replying (frameBytes 0x10 [status]) }
    (s.keys.transport ≠ none → exec (.loadTransport key check) s = .next (reply s 0x04)) ∧
    (s.keys.transport = none → checkValueOf key ≠ check →
      exec (.loadTransport key check) s = .next (reply s 0x09)) ∧
    (s.keys.transport = none → checkValueOf key = check →
      exec (.loadTransport key check) s =
        .next (reply { s with keys := { s.keys with transport := some ⟨key, check⟩ } } 0x00))) ∧
  (∀ (role : Byte) (epoch : BitVec 16) (enciphered : BitVec 128) (check : CheckValue) (s : State),
    s.run = .running → s.keyLine = .receiving [] →
    let run := exec (.loadKey role epoch enciphered check) s
    let reply := fun (t : State) (status : Byte) => { t with keyLine := .replying (frameBytes 0x11 [status]) }
    (s.keys.transport = none → run = .next (reply s 0x05)) ∧
    (∀ t, s.keys.transport = some t →
      let key := Config.blockCipher.decipher t.key enciphered
      let e := epoch.toNat
      (role ≠ 1 → role ≠ 2 → run = .next (reply s 0x06)) ∧
      (role = 1 → s.keys.find .next ≠ none → run = .next (reply s 0x07)) ∧
      (role = 1 → s.keys.find .next = none → e ≤ s.keys.highest → run = .next (reply s 0x08)) ∧
      (role = 2 → e = 0 → run = .next (reply s 0x08)) ∧
      (role = 1 → s.keys.find .next = none → s.keys.highest < e → checkValueOf key ≠ check →
        run = .next (reply s 0x09)) ∧
      (role = 2 → 0 < e → checkValueOf key ≠ check → run = .next (reply s 0x09)) ∧
      (role = 2 → 0 < e → checkValueOf key = check →
        run = .next (reply { s with keys := { s.keys with response := some ⟨key, e, check⟩ } } 0x00)) ∧
      (role = 1 → s.keys.find .next = none → s.keys.highest < e → checkValueOf key = check →
        s.keys.activeSpent = false → ∀ i : Fin 3, s.keys.slots[i] = none → (∀ k : Fin 3, k < i → s.keys.slots[k] ≠ none) →
        run = .next (reply { s with keys := { s.keys with
          slots := s.keys.slots.set i (some ⟨.next, key, e, 0, check, false⟩), highest := e } } 0x00)) ∧
      (role = 1 → s.keys.find .next = none → s.keys.highest < e → checkValueOf key = check →
        s.keys.activeSpent = true → ∀ i : Fin 3, s.keys.slots[i] = none → (∀ k : Fin 3, k < i → s.keys.slots[k] ≠ none) →
        let loaded := { s.keys with
          slots := s.keys.slots.set i (some ⟨.next, key, e, 0, check, false⟩), highest := e }
        (s.keys.find .retiring ≠ none →
          run = .next (reply { s with keys := { loaded with pendingRoll := true } } 0x00)) ∧
        (s.keys.find .retiring = none →
          ∃ (w : WrapKey) (k : KeyTable), s.keys.active = some w ∧ loaded.Rolled k s.store.directory ∧
            run = .next (reply { s with
              keys := k
              up := if custodyCount w.epoch s.store.directory = 0 then s.up.signalled .retired else s.up } 0x00)))))

/-- R173, R174, R35, R175: DISCARD_NEXT empties the NEXT slot or answers NO_NEXT; SET_POLICY replaces the table, an
undefined class stored as DROP; SET_SHOP sets an identity of 0 and is LOCKED after; QUERY changes only the reply. The
codes of roles and key states in a KEYS reply are the model's choice: log entry 37. -/
def Obligations.ShopSettingsAndDiscard : Prop :=
  ∀ s : State, s.run = .running → s.keyLine = .receiving [] →
    let reply := fun (t : State) (command status : Byte) (data : List Byte) =>
      { t with keyLine := .replying (frameBytes command (status :: data)) }
    (s.keys.find .next = none → exec .discardNext s = .next (reply s 0x12 0x0A [])) ∧
    (s.keys.find .next ≠ none →
      let t := { s with keys := { s.keys with
        slots := s.keys.slots.map fun o => o.filter fun w => decide (w.role ≠ .next), pendingRoll := false } }
      exec .discardNext s = .next (reply
        (if s.keys.activeSpent then
          { t with lp := s.lp.signalled .keySpent, up := s.up.signalled .keySpent } else t) 0x12 0x00 [])) ∧
    (∀ (entries : Vector Byte 15) (policy : Vector PolicyEntry 15),
      (∀ i : Fin 15, policy[i].required = (entries[i]).getLsbD 7 ∧
        policy[i].shopClass = (match (entries[i] : Byte).toNat % 8 with
          | 0 => .unset
          | 1 => .clear
          | 2 => .truncate
          | 3 => .wrap
          | _ => .drop)) →
      exec (.setPolicy entries) s = .next (reply { s with policy := policy } 0x20 0x00 [])) ∧
    (∀ identity : BitVec 32,
      (s.keys.identity = 0 → exec (.setShop identity) s =
        .next (reply { s with keys := { s.keys with identity := identity.toNat } } 0x21 0x00 [])) ∧
      (s.keys.identity ≠ 0 → exec (.setShop identity) s = .next (reply s 0x21 0x04 []))) ∧
    (∀ index : Byte,
      exec (.query 2 index) s = .next (reply s 0x30 0x00 (policyBytes s.policy ++ beBytes 4 s.keys.identity)) ∧
      exec (.query 3 index) s = .next (reply s 0x30 0x00 (beBytes 2 s.spill.list.length ++
        ((s.spill.list.drop index.toNat).take 6).flatMap fun x =>
          beBytes 4 x.number ++ beBytes 4 x.charge ++ beBytes 2 x.batch)) ∧
      exec (.query 1 index) s = .next (reply s 0x30 0x00 (queryKeys s.keys)) ∧
      ∀ selector : Byte, selector = 0 ∨ 3 < selector.toNat →
        exec (.query selector index) s = .next (reply s 0x30 0x0B []))

/-! ### Tamper, resets and power -/

/-- R79, R85, R14, R156, R162, R164, R166: what RESET restores when it abandons the job in service. Of a WRAP, ADVISE
or CLOSE the WRITING tail entry goes, and counter, tail slot, charge, sequence and key use go back; a CLOSE also sets
the summary-lost flag and the batch's first record number. A REWRAP's target returns to its prior state, its key use
goes back and the campaign looks (R167). An OPEN leaves nothing. What belongs to the assertion: log entry 14; the
words that an answer had sent: log entry 4; the key of an abandoned REWRAP: log entry 25. -/
def Obligations.ResetAbandonsTheJobInService : Prop :=
  ∀ s : State, s.run = .running →
    let stopped := { s with
      run := .inReset
      resetInput := true
      engine := { s.engine with job := none }
      keyLine := .hunt
      lp := s.lp.endTransactions (Config.wordsSent s.choices)
      up := s.up.endTransactions (Config.wordsSent (s.choices + 1))
      choices := s.choices + 2 }
    let claims := fun (number : Nat) (older : List Entry) (e : Entry) =>
      s.store.directory = older ++ [e] ∧ e.number = number ∧ e.state = .writing
    let restored := fun (epoch : Nat) (older : List Entry) (e : Entry) (t : State) =>
      s.store.Unclaimed t.store older e s.cfg ∧ t.meter = s.meter - e.charge ∧
        ∃ k, s.keys.UseSetBack k epoch ∧ k.Resettled t.keys older
    (∀ (lane : Fin 16) (number epoch : Nat) (older : List Entry) (e : Entry),
      ((∃ j : WrapJob, s.engine.job = some (.wrap j) ∧ j.lane = lane ∧ j.number = number ∧ j.epoch = epoch) ∨
        ∃ j : AdviseJob, s.engine.job = some (.advise j) ∧ j.lane = lane ∧ j.number = number ∧ j.epoch = epoch) →
      claims number older e →
      ∃ t, exec .resetAssertion s = .next t ∧ restored epoch older e t ∧
        t = { stopped with
          store := t.store
          meter := t.meter
          keys := t.keys
          lanes := s.lanes.set lane { s.lanes[lane] with
            seq := if s.lanes[lane].seq = 0 then 16777215 else s.lanes[lane].seq - 1 } }) ∧
    (∀ (j : CloseJob) (older : List Entry) (e : Entry), s.engine.job = some (.close j) → claims j.number older e →
      ∃ t, exec .resetAssertion s = .next t ∧ restored j.epoch older e t ∧
        t = { stopped with
          store := t.store, meter := t.meter, keys := t.keys, batch := s.batch.summaryGone j.number }) ∧
    (∀ j : RewrapJob, s.engine.job = some (.rewrap j) →
      ∃ t k, exec .resetAssertion s = .next t ∧ s.keys.UseSetBack k j.epoch ∧
        t = { stopped with
          store := { s.store with directory := unrewrapped j.target s.store.directory }
          keys := { k with campaign := t.keys.campaign } } ∧
        t.keys.campaign = s.keys.lookedOver t.store.directory) ∧
    (∀ j : OpenJob, s.engine.job = some (.opening j) → exec .resetAssertion s = .next stopped)

/-- R22, R80, R106, R117, R137, R149, R158, R167, R177, R188: with no job in service, RESET asserted and released
keeps what is retained and brings lanes, directory, engine, intake, link and ports to their warm reset values,
RESTARTED alone set; the campaign's request is cleared and, while a key is RETIRING, posted again if it has a target
(R167). A held read is ABORTED, and an answer that is being sent ends after the words that have crossed. What belongs
to the assertion: log entry 14; how many words have crossed, and that an ended answer stands: log entry 4. -/
def Obligations.WarmResetKeepsRetainedState : Prop :=
  ∀ s : State, s.run = .running → s.engine.job = none →
    ∃ u t, exec .resetAssertion s = .next u ∧ exec .resetRelease u = .next t ∧
      t = { s with
        lanes := t.lanes
        engine := ⟨none, 0, 0, 0⟩
        store := { s.store with directory := t.store.directory, armed := t.store.armed }
        spill := { s.spill with reservation := none }
        link := ⟨.doubt, 0, 0⟩
        intake := { s.intake with queue := [], claimed := 0, suspended := false, last := none }
        batch := { s.batch with closePending := false }
        keys := { s.keys with campaign := t.keys.campaign }
        keyLine := .hunt
        lp := t.lp
        up := t.up
        resetInput := false
        choices := s.choices + 2 } ∧
      (∀ l : Fin 16, t.lanes[l] = ⟨.idle, Vector.replicate 128 0, Vector.replicate 128 false, s.lanes[l].seq, 0, false,
        .lost, false⟩) ∧
      t.store.directory = s.store.directory.map (fun e => { e with
        awaiting := false
        state := match e.state with
          | .offered _ => .held
          | .spilling => .held
          | st => st }) ∧
      t.store.armed = (decide (s.store.slotsUsed < s.cfg.lowSlot) && decide (s.store.entriesUsed < s.cfg.lowEntry)) ∧
      t.keys.campaign = ((s.keys.find .retiring).bind fun w => campaignTarget w.epoch t.store.directory) ∧
      (∀ p, (t.port p).posted = [] ∧ (t.port p).held = none ∧ (t.port p).lastRefusal = none ∧
        (t.port p).refusalCount = 0 ∧ (t.port p).truncated = false ∧ (t.port p).events = Event.restarted.bit ∧
        (t.port p).mask = (s.port p).mask ∧
        s.AnswerEnded t p)

/-- R104, R188: power lost with the backup supply holding and restored makes the same warm start as RESET; without it
the next power-up makes a cold start. While RESET stays asserted, power lost and restored leaves the part held in reset,
to make the rest of its warm start at the release, or, after a cold start, to run with no event set. The model's own
count of choices stays; loss of power: log entries 8 and 11; a cold start under RESET: log entry 13. -/
def Obligations.PowerUpReadsTheRetentionMarker : Prop :=
  ∀ s : State, s.run = .running → s.resetInput = false →
    (∃ u, exec (.powerLoss false) s = .next u ∧ u.run = .unpowered ∧ u.marker = false ∧
      exec .powerUp u = .next { State.reset with pending := s.pending, choices := u.choices }) ∧
    (s.marker = true → ∃ u v t, exec (.powerLoss true) s = .next u ∧ u.run = .unpowered ∧ u.marker = true ∧
      exec .resetAssertion s = .next v ∧ v.run = .inReset ∧ exec .resetRelease v = .next t ∧ t.run = .running ∧
      exec .powerUp u = .next t ∧
      ∃ w, exec (.powerLoss true) v = .next w ∧ w.run = .unpowered ∧ exec .powerUp w = .next v) ∧
    (∃ v w x, exec .resetAssertion s = .next v ∧ exec (.powerLoss false) v = .next w ∧ exec .powerUp w = .next x ∧
      x = { State.reset with
        pending := s.pending, choices := x.choices, resetInput := true, run := .inColdReset } ∧
      exec .resetRelease x = .next { State.reset with pending := s.pending, choices := x.choices })

/-- R176, R79, R156, R22, R80, R107, R137, R149, R158, R177, R188: a tamper empties every key slot, abandons the job in
service (a claimed tail entry goes with its charge, a CLOSE loses its summary, a REWRAP's target returns), clears lanes,
intake and engine, ends the ports' transactions and adds TAMPER on both ports; other records, spill, link, policy and
configuration stay. Every awaiting flag goes, in every run state: log entries 12 and 19; the words that an answer had
sent: log entry 4. -/
def Obligations.TamperZeroisesTheKeys : Prop :=
  ∀ s : State, ∃ t, exec .tamper s = .next t ∧
    t = { s with
      lanes := Vector.replicate 16
        ⟨.idle, Vector.replicate 128 0, Vector.replicate 128 false, 0, 0, false, .lost, false⟩
      engine := ⟨none, 0, 0, 0⟩
      store := t.store
      meter := t.meter
      batch := t.batch
      intake := ⟨[], 0, false, 0, 0, none⟩
      keys := { s.keys with
        slots := Vector.replicate 3 none
        response := none
        transport := none
        pendingRoll := false
        retiring := 0
        campaign := none }
      keyLine := .hunt
      lp := t.lp
      up := t.up
      choices := s.choices + 2 } ∧
    (let unawaited := fun (st : Store) =>
      { st with directory := st.directory.map fun e => { e with awaiting := false } }
    let unclaimed := fun (number : Nat) => ∀ (older : List Entry) (e : Entry),
      s.store.directory = older ++ [e] → e.number = number → e.state = .writing →
      t.meter = s.meter - e.charge ∧
        ∃ st, s.store.Unclaimed st older e s.cfg ∧ t.store = unawaited st
    ((s.engine.job = none ∨ ∃ j, s.engine.job = some (.opening j)) →
      t.store = unawaited s.store ∧ t.meter = s.meter ∧ t.batch = s.batch) ∧
    (∀ j, s.engine.job = some (.wrap j) → unclaimed j.number ∧ t.batch = s.batch) ∧
    (∀ j, s.engine.job = some (.advise j) → unclaimed j.number ∧ t.batch = s.batch) ∧
    (∀ j, s.engine.job = some (.close j) → unclaimed j.number ∧ t.batch = s.batch.summaryGone j.number) ∧
    (∀ j, s.engine.job = some (.rewrap j) →
      t.store = unawaited { s.store with directory := unrewrapped j.target s.store.directory } ∧
        t.meter = s.meter ∧ t.batch = s.batch)) ∧
    ∀ p, (t.port p).posted = [] ∧ (t.port p).held = none ∧ (t.port p).mask = (s.port p).mask ∧
      (t.port p).lastRefusal = (s.port p).lastRefusal ∧ (t.port p).refusalCount = (s.port p).refusalCount ∧
      (t.port p).truncated = (s.port p).truncated ∧
      (t.port p).events = (s.port p).events ||| Event.tamper.bit ∧ s.AnswerEnded t p

/-! ### Invariants of every step -/

/-- The invariants below hold of the machine right after a cold start. -/
def Obligations.ColdStartMeetsTheInvariants : Prop :=
  State.reset.MeterBalanced ∧ State.reset.StoreFits ∧ State.reset.keys.Ordered ∧ State.reset.Regular

/-- R118: from every state in which the meter equals the charges that the directory and the spill list carry, every step
leads to such a state. -/
def Obligations.MeterStaysBalanced : Prop :=
  ∀ s t : State, s.MeterBalanced → step s = .next t → t.MeterBalanced

/-- R81, R83, R93: every step keeps the directory within 512 entries, the ring within 4,096 slots, at most 8 entries
OFFERED, and the ring's memory in canonical form. -/
def Obligations.StoreStaysWithinItsGeometry : Prop :=
  ∀ s t : State, s.StoreFits → step s = .next t → t.StoreFits

/-- R159, R160: every step keeps each role in at most one slot, the epochs rising with the roles, and no epoch above the
highest epoch. -/
def Obligations.KeyRolesStayOrdered : Prop :=
  ∀ s t : State, s.keys.Ordered → step s = .next t → t.keys.Ordered

/-- R16, R59, R88, R101, R104, R123, R124, R130, R135, R145, R181, R182, R184, R191: every step keeps the configuration
in its ranges, the link counts those of the link state, each port's events, mask, count and queue within bounds, and a
part whose RESET input is asserted from running. -/
def Obligations.ConfigurationLinkAndPortsStaySound : Prop :=
  ∀ s t : State, s.Regular → step s = .next t → t.Regular
end

