-- ==== Sys2Proof/Laws/Bytes.lean ====
section
/-! SUPPORT. Quantities as bytes and back (12.1), and the key line payloads read back (12.5). -/

namespace Sys2Proof.Machine

@[simp] theorem length_beBytes (k n : Nat) : (beBytes k n).length = k := by
  induction k generalizing n with
  | zero => rfl
  | succ k ih => simp [beBytes, ih]

theorem beNat_append_singleton (bs : List Byte) (b : Byte) : beNat (bs ++ [b]) = beNat bs * 256 + b.toNat := by
  simp [beNat]

/-- A quantity is read back from its bytes modulo their range (12.1). -/
theorem beNat_beBytes (k n : Nat) : beNat (beBytes k n) = n % 256 ^ k := by
  induction k generalizing n with
  | zero => simp [beBytes, beNat, Nat.mod_one]
  | succ k ih =>
    have h : n % 256 ^ (k + 1) = n % 256 + 256 * (n / 256 % 256 ^ k) := by rw [Nat.pow_succ', Nat.mod_mul]
    rw [beBytes, beNat_append_singleton, ih, h, BitVec.toNat_ofNat]
    omega

theorem beNat_beBytes_of_lt {k n : Nat} (h : n < 256 ^ k) : beNat (beBytes k n) = n := by
  rw [beNat_beBytes, Nat.mod_eq_of_lt h]

/-- A field in the middle of a layout is read back. -/
theorem slice_append (xs ys zs : List Byte) {i n : Nat} (hi : xs.length = i) (hn : ys.length = n) :
    slice (xs ++ (ys ++ zs)) i n = ys := by
  subst hi hn; simp [slice]

theorem fieldAt_append (xs ys zs : List Byte) {i n : Nat} (hi : xs.length = i) (hn : ys.length = n) :
    fieldAt (xs ++ (ys ++ zs)) i n = beNat ys := by
  rw [fieldAt, slice_append xs ys zs hi hn]

@[simp] theorem length_keyBytes (k : BitVec 128) : (keyBytes k).length = 16 := length_beBytes _ _

theorem beNat_keyBytes (k : BitVec 128) : BitVec.ofNat 128 (beNat (keyBytes k)) = k := by
  rw [keyBytes, beNat_beBytes_of_lt (by have := k.isLt; omega)]; simp

theorem beNat_checkBytes (c : CheckValue) : BitVec.ofNat 24 (beNat (beBytes 3 c.toNat)) = c := by
  rw [beNat_beBytes_of_lt (by have := c.isLt; omega)]; simp

/-- LOAD_TRANSPORT's frame runs LOAD_TRANSPORT (R170, 12.5). -/
theorem executeFrame_loadTransport (key : Key) (check : CheckValue) (s : State) :
    executeFrame loadTransportCode (loadTransportPayload key check) s = loadTransport key check s := by
  have h1 : fieldAt (loadTransportPayload key check) 0 16 = beNat (keyBytes key) := by
    have := fieldAt_append [] (keyBytes key) (beBytes 3 check.toNat) (i := 0) rfl (length_keyBytes key)
    simpa only [loadTransportPayload, List.nil_append] using this
  have h2 : fieldAt (loadTransportPayload key check) 16 3 = beNat (beBytes 3 check.toNat) := by
    have := fieldAt_append (keyBytes key) (beBytes 3 check.toNat) [] (i := 16) (n := 3) (length_keyBytes key)
      (length_beBytes 3 _)
    simpa only [loadTransportPayload, List.append_nil] using this
  have hl : (loadTransportPayload key check).length = 19 := by simp [loadTransportPayload]
  simp only [executeFrame, payloadSize, loadTransportCode, hl, ne_eq, runCommand, h1, h2,
    beNat_keyBytes, beNat_checkBytes]
  rfl

/-- LOAD_KEY's frame runs LOAD_KEY (R170, 12.5). -/
theorem executeFrame_loadKey (role : Byte) (epoch : BitVec 16) (enc : BitVec 128) (check : CheckValue) (s : State) :
    executeFrame loadKeyCode (loadKeyPayload role epoch enc check) s = loadKey role epoch enc check s := by
  have e : loadKeyPayload role epoch enc check =
      [role] ++ (beBytes 2 epoch.toNat ++ (keyBytes enc ++ beBytes 3 check.toNat)) := by
    simp [loadKeyPayload]
  have h0 : payloadByte (loadKeyPayload role epoch enc check) 0 = role := by simp [payloadByte, loadKeyPayload]
  have h1 : fieldAt (loadKeyPayload role epoch enc check) 1 2 = epoch.toNat := by
    rw [e, fieldAt_append [role] (beBytes 2 epoch.toNat) _ (i := 1) rfl (length_beBytes 2 _),
      beNat_beBytes_of_lt (by have := epoch.isLt; omega)]
  have h2 : fieldAt (loadKeyPayload role epoch enc check) 3 16 = beNat (keyBytes enc) := by
    rw [e, ← List.append_assoc]
    exact fieldAt_append ([role] ++ beBytes 2 epoch.toNat) (keyBytes enc) _ (by simp) (length_keyBytes enc)
  have h3 : fieldAt (loadKeyPayload role epoch enc check) 19 3 = beNat (beBytes 3 check.toNat) := by
    rw [e, ← List.append_assoc, ← List.append_assoc]
    have := fieldAt_append (([role] ++ beBytes 2 epoch.toNat) ++ keyBytes enc) (beBytes 3 check.toNat) [] (i := 19)
      (n := 3) (by simp) (length_beBytes 3 _)
    simpa only [List.append_nil] using this
  have hl : (loadKeyPayload role epoch enc check).length = 22 := by simp [loadKeyPayload]
  simp only [executeFrame, payloadSize, loadKeyCode, hl, ne_eq, runCommand, h0, h1, h2, h3,
    beNat_keyBytes, beNat_checkBytes, BitVec.ofNat_toNat, BitVec.setWidth_eq]
  rfl

/-- SET_SHOP's frame runs SET_SHOP (R170, 12.5). -/
theorem executeFrame_setShop (identity : BitVec 32) (s : State) :
    executeFrame setShopCode (setShopPayload identity) s = setShop identity s := by
  have h : fieldAt (setShopPayload identity) 0 4 = identity.toNat := by
    have := fieldAt_append [] (beBytes 4 identity.toNat) [] (i := 0) (n := 4) rfl (length_beBytes 4 _)
    rw [beNat_beBytes_of_lt (by have := identity.isLt; omega)] at this
    simpa [setShopPayload] using this
  have hl : (setShopPayload identity).length = 4 := by simp [setShopPayload]
  simp only [executeFrame, payloadSize, setShopCode, hl, ne_eq, runCommand, h,
    BitVec.ofNat_toNat, BitVec.setWidth_eq]
  rfl

/-- SET_POLICY's frame runs SET_POLICY (R170, 12.5). -/
theorem executeFrame_setPolicy (entries : Vector Byte 15) (s : State) :
    executeFrame setPolicyCode entries.toList s = setPolicy entries s := by
  have hv : (Vector.ofFn fun i : Fin 15 => payloadByte entries.toList i.val) = entries := by
    apply Vector.ext; intro i hi; simp [payloadByte]
  have hl : entries.toList.length = 15 := by simp
  simp only [executeFrame, payloadSize, setPolicyCode, hl, ne_eq, runCommand, hv]
  rfl

/-- DISCARD_NEXT's frame runs DISCARD_NEXT (R170, 12.5). -/
theorem executeFrame_discardNext (s : State) : executeFrame discardNextCode [] s = discardNext s := rfl

/-- QUERY's frame runs QUERY (R170, 12.5). -/
theorem executeFrame_query (selector index : Byte) (s : State) :
    executeFrame queryCode [selector, index] s = query selector index s := rfl

end Sys2Proof.Machine
end

