-- ==== Sys2Proof/Laws/Cipher.lean ====
section
/-! SUPPORT. What the cipher's laws say of sealed records and derived keys (3.7): lengths, decipherment, the layout of a
sealed record, the keys of records and responses. -/

namespace Sys2Proof.Machine

@[simp] theorem length_encipher (k : Key) (plain : List Byte) : (encipher k plain).length = plain.length :=
  Config.bodyCipher.length_encipher k plain

/-- The same key deciphers an enciphered body back (R56). -/
@[simp] theorem decipher_encipher (k : Key) (plain : List Byte) : decipher k (encipher k plain) = plain :=
  Config.bodyCipher.decipher_encipher k plain

@[simp] theorem encipher_decipher (k : Key) (body : List Byte) : encipher k (decipher k body) = body :=
  Config.bodyCipher.encipher_decipher k body

@[simp] theorem length_decipher (k : Key) (body : List Byte) : (decipher k body).length = body.length := by
  rw [← length_encipher k, encipher_decipher]

@[simp] theorem length_tagOf (k : Key) (data : List Byte) : (tagOf k data).length = 16 :=
  Config.tagging.length_tag k data

/-- A per-response key is the per-record key of no wrapping key for the same three values (R57). -/
theorem responseKeyFor_ne_record (k wrapping : Key) (r : List Byte) :
    responseKeyFor k r ≠ Config.deriveKey wrapping .record (responseNumber r) (responseLane r) (responseSeq r) :=
  (Config.derivation.record_ne_response _ _ _ _ _).symm

/-- A change to one byte of a record's header, clear part or body makes its tag fail (R55). -/
theorem tagOf_set_ne (k : Key) (data : List Byte) {i : Nat} {b : Byte} (hi : i < data.length) (hb : data[i]? ≠ some b) :
    tagOf k (data.set i b) ≠ tagOf k data :=
  Config.tagging.tag_set_ne k data i b hi hb

/-- Of two response records that differ in the clear header alone, at most one passes its tag under a response key
(R138). -/
theorem response_header_changed {k : Key} {r r' : List Byte} (hr : r.length = 48) (hr' : r'.length = 48)
    (hh : r.take 16 ≠ r'.take 16) (hd : r.drop 16 = r'.drop 16)
    (hp : Config.tagPasses (responseKeyFor k r) (slice r 0 32) (slice r 32 16) = true) :
    Config.tagPasses (responseKeyFor k r') (slice r' 0 32) (slice r' 32 16) = false := by
  have split : ∀ x : List Byte, slice x 0 32 = x.take 16 ++ (x.drop 16).take 16 := fun x => by
    simp only [slice, List.drop_zero]; rw [← List.take_add]
  have tag : ∀ x : List Byte, slice x 32 16 = ((x.drop 16).drop 16).take 16 := fun x => by simp [slice]
  rw [split, tag] at hp ⊢
  rw [← hd]
  exact Config.tagTest.header_changed k _ _ _ _ _ _ _ _ _ _ (by simp; omega) (by simp; omega) (by simp; omega) hh hp

/-- A sealed record that fits its slots is header, clear part, enciphered body, tag and zero filler (R55). -/
theorem sealRecord_eq (k : Key) (header clear plain : List Byte) (slots : Nat)
    (h : header.length + clear.length + plain.length + 16 ≤ 32 * slots) :
    sealRecord k header clear plain slots =
      header ++ clear ++ encipher k plain ++ tagOf k (header ++ clear ++ encipher k plain) ++
        List.replicate (32 * slots - (header.length + clear.length + plain.length + 16)) 0 := by
  simp only [sealRecord, padTo, Config.slotBytes]
  rw [List.take_of_length_le (by simp; omega)]
  simp [Nat.add_assoc]

end Sys2Proof.Machine
end

