-- ==== Sys2Proof/Laws/State.lean ====
section
/-! SUPPORT. One lemma for each field and each update of the state, true by unfolding. -/

namespace Sys2Proof.Machine

/-! ### setRun -/

@[simp] theorem State.setRun_pending (s : State) (r : RunState) : (s.setRun r).pending = s.pending := rfl
@[simp] theorem State.setRun_run (s : State) (r : RunState) : (s.setRun r).run = r := rfl
@[simp] theorem State.setRun_resetInput (s : State) (r : RunState) : (s.setRun r).resetInput = s.resetInput := rfl
@[simp] theorem State.setRun_marker (s : State) (r : RunState) : (s.setRun r).marker = s.marker := rfl
@[simp] theorem State.setRun_lanes (s : State) (r : RunState) : (s.setRun r).lanes = s.lanes := rfl
@[simp] theorem State.setRun_policy (s : State) (r : RunState) : (s.setRun r).policy = s.policy := rfl
@[simp] theorem State.setRun_engine (s : State) (r : RunState) : (s.setRun r).engine = s.engine := rfl
@[simp] theorem State.setRun_store (s : State) (r : RunState) : (s.setRun r).store = s.store := rfl
@[simp] theorem State.setRun_spill (s : State) (r : RunState) : (s.setRun r).spill = s.spill := rfl
@[simp] theorem State.setRun_meter (s : State) (r : RunState) : (s.setRun r).meter = s.meter := rfl
@[simp] theorem State.setRun_link (s : State) (r : RunState) : (s.setRun r).link = s.link := rfl
@[simp] theorem State.setRun_intake (s : State) (r : RunState) : (s.setRun r).intake = s.intake := rfl
@[simp] theorem State.setRun_batch (s : State) (r : RunState) : (s.setRun r).batch = s.batch := rfl
@[simp] theorem State.setRun_keys (s : State) (r : RunState) : (s.setRun r).keys = s.keys := rfl
@[simp] theorem State.setRun_keyLine (s : State) (r : RunState) : (s.setRun r).keyLine = s.keyLine := rfl
@[simp] theorem State.setRun_lp (s : State) (r : RunState) : (s.setRun r).lp = s.lp := rfl
@[simp] theorem State.setRun_up (s : State) (r : RunState) : (s.setRun r).up = s.up := rfl
@[simp] theorem State.setRun_cfg (s : State) (r : RunState) : (s.setRun r).cfg = s.cfg := rfl
@[simp] theorem State.setRun_choices (s : State) (r : RunState) : (s.setRun r).choices = s.choices := rfl

/-! ### setResetInput -/

@[simp] theorem State.setResetInput_pending (s : State) (b : Bool) : (s.setResetInput b).pending = s.pending := rfl
@[simp] theorem State.setResetInput_run (s : State) (b : Bool) : (s.setResetInput b).run = s.run := rfl
@[simp] theorem State.setResetInput_resetInput (s : State) (b : Bool) : (s.setResetInput b).resetInput = b := rfl
@[simp] theorem State.setResetInput_marker (s : State) (b : Bool) : (s.setResetInput b).marker = s.marker := rfl
@[simp] theorem State.setResetInput_lanes (s : State) (b : Bool) : (s.setResetInput b).lanes = s.lanes := rfl
@[simp] theorem State.setResetInput_policy (s : State) (b : Bool) : (s.setResetInput b).policy = s.policy := rfl
@[simp] theorem State.setResetInput_engine (s : State) (b : Bool) : (s.setResetInput b).engine = s.engine := rfl
@[simp] theorem State.setResetInput_store (s : State) (b : Bool) : (s.setResetInput b).store = s.store := rfl
@[simp] theorem State.setResetInput_spill (s : State) (b : Bool) : (s.setResetInput b).spill = s.spill := rfl
@[simp] theorem State.setResetInput_meter (s : State) (b : Bool) : (s.setResetInput b).meter = s.meter := rfl
@[simp] theorem State.setResetInput_link (s : State) (b : Bool) : (s.setResetInput b).link = s.link := rfl
@[simp] theorem State.setResetInput_intake (s : State) (b : Bool) : (s.setResetInput b).intake = s.intake := rfl
@[simp] theorem State.setResetInput_batch (s : State) (b : Bool) : (s.setResetInput b).batch = s.batch := rfl
@[simp] theorem State.setResetInput_keys (s : State) (b : Bool) : (s.setResetInput b).keys = s.keys := rfl
@[simp] theorem State.setResetInput_keyLine (s : State) (b : Bool) : (s.setResetInput b).keyLine = s.keyLine := rfl
@[simp] theorem State.setResetInput_lp (s : State) (b : Bool) : (s.setResetInput b).lp = s.lp := rfl
@[simp] theorem State.setResetInput_up (s : State) (b : Bool) : (s.setResetInput b).up = s.up := rfl
@[simp] theorem State.setResetInput_cfg (s : State) (b : Bool) : (s.setResetInput b).cfg = s.cfg := rfl
@[simp] theorem State.setResetInput_choices (s : State) (b : Bool) : (s.setResetInput b).choices = s.choices := rfl

/-! ### setMarker -/

@[simp] theorem State.setMarker_pending (s : State) (b : Bool) : (s.setMarker b).pending = s.pending := rfl
@[simp] theorem State.setMarker_run (s : State) (b : Bool) : (s.setMarker b).run = s.run := rfl
@[simp] theorem State.setMarker_resetInput (s : State) (b : Bool) : (s.setMarker b).resetInput = s.resetInput := rfl
@[simp] theorem State.setMarker_marker (s : State) (b : Bool) : (s.setMarker b).marker = b := rfl
@[simp] theorem State.setMarker_lanes (s : State) (b : Bool) : (s.setMarker b).lanes = s.lanes := rfl
@[simp] theorem State.setMarker_policy (s : State) (b : Bool) : (s.setMarker b).policy = s.policy := rfl
@[simp] theorem State.setMarker_engine (s : State) (b : Bool) : (s.setMarker b).engine = s.engine := rfl
@[simp] theorem State.setMarker_store (s : State) (b : Bool) : (s.setMarker b).store = s.store := rfl
@[simp] theorem State.setMarker_spill (s : State) (b : Bool) : (s.setMarker b).spill = s.spill := rfl
@[simp] theorem State.setMarker_meter (s : State) (b : Bool) : (s.setMarker b).meter = s.meter := rfl
@[simp] theorem State.setMarker_link (s : State) (b : Bool) : (s.setMarker b).link = s.link := rfl
@[simp] theorem State.setMarker_intake (s : State) (b : Bool) : (s.setMarker b).intake = s.intake := rfl
@[simp] theorem State.setMarker_batch (s : State) (b : Bool) : (s.setMarker b).batch = s.batch := rfl
@[simp] theorem State.setMarker_keys (s : State) (b : Bool) : (s.setMarker b).keys = s.keys := rfl
@[simp] theorem State.setMarker_keyLine (s : State) (b : Bool) : (s.setMarker b).keyLine = s.keyLine := rfl
@[simp] theorem State.setMarker_lp (s : State) (b : Bool) : (s.setMarker b).lp = s.lp := rfl
@[simp] theorem State.setMarker_up (s : State) (b : Bool) : (s.setMarker b).up = s.up := rfl
@[simp] theorem State.setMarker_cfg (s : State) (b : Bool) : (s.setMarker b).cfg = s.cfg := rfl
@[simp] theorem State.setMarker_choices (s : State) (b : Bool) : (s.setMarker b).choices = s.choices := rfl

/-! ### updLanes -/

@[simp] theorem State.updLanes_pending (s : State) (f : Vector Lane 16 → Vector Lane 16) : (s.updLanes f).pending = s.pending := rfl
@[simp] theorem State.updLanes_run (s : State) (f : Vector Lane 16 → Vector Lane 16) : (s.updLanes f).run = s.run := rfl
@[simp] theorem State.updLanes_resetInput (s : State) (f : Vector Lane 16 → Vector Lane 16) : (s.updLanes f).resetInput = s.resetInput := rfl
@[simp] theorem State.updLanes_marker (s : State) (f : Vector Lane 16 → Vector Lane 16) : (s.updLanes f).marker = s.marker := rfl
@[simp] theorem State.updLanes_lanes (s : State) (f : Vector Lane 16 → Vector Lane 16) : (s.updLanes f).lanes = f s.lanes := rfl
@[simp] theorem State.updLanes_policy (s : State) (f : Vector Lane 16 → Vector Lane 16) : (s.updLanes f).policy = s.policy := rfl
@[simp] theorem State.updLanes_engine (s : State) (f : Vector Lane 16 → Vector Lane 16) : (s.updLanes f).engine = s.engine := rfl
@[simp] theorem State.updLanes_store (s : State) (f : Vector Lane 16 → Vector Lane 16) : (s.updLanes f).store = s.store := rfl
@[simp] theorem State.updLanes_spill (s : State) (f : Vector Lane 16 → Vector Lane 16) : (s.updLanes f).spill = s.spill := rfl
@[simp] theorem State.updLanes_meter (s : State) (f : Vector Lane 16 → Vector Lane 16) : (s.updLanes f).meter = s.meter := rfl
@[simp] theorem State.updLanes_link (s : State) (f : Vector Lane 16 → Vector Lane 16) : (s.updLanes f).link = s.link := rfl
@[simp] theorem State.updLanes_intake (s : State) (f : Vector Lane 16 → Vector Lane 16) : (s.updLanes f).intake = s.intake := rfl
@[simp] theorem State.updLanes_batch (s : State) (f : Vector Lane 16 → Vector Lane 16) : (s.updLanes f).batch = s.batch := rfl
@[simp] theorem State.updLanes_keys (s : State) (f : Vector Lane 16 → Vector Lane 16) : (s.updLanes f).keys = s.keys := rfl
@[simp] theorem State.updLanes_keyLine (s : State) (f : Vector Lane 16 → Vector Lane 16) : (s.updLanes f).keyLine = s.keyLine := rfl
@[simp] theorem State.updLanes_lp (s : State) (f : Vector Lane 16 → Vector Lane 16) : (s.updLanes f).lp = s.lp := rfl
@[simp] theorem State.updLanes_up (s : State) (f : Vector Lane 16 → Vector Lane 16) : (s.updLanes f).up = s.up := rfl
@[simp] theorem State.updLanes_cfg (s : State) (f : Vector Lane 16 → Vector Lane 16) : (s.updLanes f).cfg = s.cfg := rfl
@[simp] theorem State.updLanes_choices (s : State) (f : Vector Lane 16 → Vector Lane 16) : (s.updLanes f).choices = s.choices := rfl

/-! ### setPolicy -/

@[simp] theorem State.setPolicy_pending (s : State) (p : Vector PolicyEntry 15) : (s.setPolicy p).pending = s.pending := rfl
@[simp] theorem State.setPolicy_run (s : State) (p : Vector PolicyEntry 15) : (s.setPolicy p).run = s.run := rfl
@[simp] theorem State.setPolicy_resetInput (s : State) (p : Vector PolicyEntry 15) : (s.setPolicy p).resetInput = s.resetInput := rfl
@[simp] theorem State.setPolicy_marker (s : State) (p : Vector PolicyEntry 15) : (s.setPolicy p).marker = s.marker := rfl
@[simp] theorem State.setPolicy_lanes (s : State) (p : Vector PolicyEntry 15) : (s.setPolicy p).lanes = s.lanes := rfl
@[simp] theorem State.setPolicy_policy (s : State) (p : Vector PolicyEntry 15) : (s.setPolicy p).policy = p := rfl
@[simp] theorem State.setPolicy_engine (s : State) (p : Vector PolicyEntry 15) : (s.setPolicy p).engine = s.engine := rfl
@[simp] theorem State.setPolicy_store (s : State) (p : Vector PolicyEntry 15) : (s.setPolicy p).store = s.store := rfl
@[simp] theorem State.setPolicy_spill (s : State) (p : Vector PolicyEntry 15) : (s.setPolicy p).spill = s.spill := rfl
@[simp] theorem State.setPolicy_meter (s : State) (p : Vector PolicyEntry 15) : (s.setPolicy p).meter = s.meter := rfl
@[simp] theorem State.setPolicy_link (s : State) (p : Vector PolicyEntry 15) : (s.setPolicy p).link = s.link := rfl
@[simp] theorem State.setPolicy_intake (s : State) (p : Vector PolicyEntry 15) : (s.setPolicy p).intake = s.intake := rfl
@[simp] theorem State.setPolicy_batch (s : State) (p : Vector PolicyEntry 15) : (s.setPolicy p).batch = s.batch := rfl
@[simp] theorem State.setPolicy_keys (s : State) (p : Vector PolicyEntry 15) : (s.setPolicy p).keys = s.keys := rfl
@[simp] theorem State.setPolicy_keyLine (s : State) (p : Vector PolicyEntry 15) : (s.setPolicy p).keyLine = s.keyLine := rfl
@[simp] theorem State.setPolicy_lp (s : State) (p : Vector PolicyEntry 15) : (s.setPolicy p).lp = s.lp := rfl
@[simp] theorem State.setPolicy_up (s : State) (p : Vector PolicyEntry 15) : (s.setPolicy p).up = s.up := rfl
@[simp] theorem State.setPolicy_cfg (s : State) (p : Vector PolicyEntry 15) : (s.setPolicy p).cfg = s.cfg := rfl
@[simp] theorem State.setPolicy_choices (s : State) (p : Vector PolicyEntry 15) : (s.setPolicy p).choices = s.choices := rfl

/-! ### updEngine -/

@[simp] theorem State.updEngine_pending (s : State) (f : Engine → Engine) : (s.updEngine f).pending = s.pending := rfl
@[simp] theorem State.updEngine_run (s : State) (f : Engine → Engine) : (s.updEngine f).run = s.run := rfl
@[simp] theorem State.updEngine_resetInput (s : State) (f : Engine → Engine) : (s.updEngine f).resetInput = s.resetInput := rfl
@[simp] theorem State.updEngine_marker (s : State) (f : Engine → Engine) : (s.updEngine f).marker = s.marker := rfl
@[simp] theorem State.updEngine_lanes (s : State) (f : Engine → Engine) : (s.updEngine f).lanes = s.lanes := rfl
@[simp] theorem State.updEngine_policy (s : State) (f : Engine → Engine) : (s.updEngine f).policy = s.policy := rfl
@[simp] theorem State.updEngine_engine (s : State) (f : Engine → Engine) : (s.updEngine f).engine = f s.engine := rfl
@[simp] theorem State.updEngine_store (s : State) (f : Engine → Engine) : (s.updEngine f).store = s.store := rfl
@[simp] theorem State.updEngine_spill (s : State) (f : Engine → Engine) : (s.updEngine f).spill = s.spill := rfl
@[simp] theorem State.updEngine_meter (s : State) (f : Engine → Engine) : (s.updEngine f).meter = s.meter := rfl
@[simp] theorem State.updEngine_link (s : State) (f : Engine → Engine) : (s.updEngine f).link = s.link := rfl
@[simp] theorem State.updEngine_intake (s : State) (f : Engine → Engine) : (s.updEngine f).intake = s.intake := rfl
@[simp] theorem State.updEngine_batch (s : State) (f : Engine → Engine) : (s.updEngine f).batch = s.batch := rfl
@[simp] theorem State.updEngine_keys (s : State) (f : Engine → Engine) : (s.updEngine f).keys = s.keys := rfl
@[simp] theorem State.updEngine_keyLine (s : State) (f : Engine → Engine) : (s.updEngine f).keyLine = s.keyLine := rfl
@[simp] theorem State.updEngine_lp (s : State) (f : Engine → Engine) : (s.updEngine f).lp = s.lp := rfl
@[simp] theorem State.updEngine_up (s : State) (f : Engine → Engine) : (s.updEngine f).up = s.up := rfl
@[simp] theorem State.updEngine_cfg (s : State) (f : Engine → Engine) : (s.updEngine f).cfg = s.cfg := rfl
@[simp] theorem State.updEngine_choices (s : State) (f : Engine → Engine) : (s.updEngine f).choices = s.choices := rfl

/-! ### updStore -/

@[simp] theorem State.updStore_pending (s : State) (f : Store → Store) : (s.updStore f).pending = s.pending := rfl
@[simp] theorem State.updStore_run (s : State) (f : Store → Store) : (s.updStore f).run = s.run := rfl
@[simp] theorem State.updStore_resetInput (s : State) (f : Store → Store) : (s.updStore f).resetInput = s.resetInput := rfl
@[simp] theorem State.updStore_marker (s : State) (f : Store → Store) : (s.updStore f).marker = s.marker := rfl
@[simp] theorem State.updStore_lanes (s : State) (f : Store → Store) : (s.updStore f).lanes = s.lanes := rfl
@[simp] theorem State.updStore_policy (s : State) (f : Store → Store) : (s.updStore f).policy = s.policy := rfl
@[simp] theorem State.updStore_engine (s : State) (f : Store → Store) : (s.updStore f).engine = s.engine := rfl
@[simp] theorem State.updStore_store (s : State) (f : Store → Store) : (s.updStore f).store = f s.store := rfl
@[simp] theorem State.updStore_spill (s : State) (f : Store → Store) : (s.updStore f).spill = s.spill := rfl
@[simp] theorem State.updStore_meter (s : State) (f : Store → Store) : (s.updStore f).meter = s.meter := rfl
@[simp] theorem State.updStore_link (s : State) (f : Store → Store) : (s.updStore f).link = s.link := rfl
@[simp] theorem State.updStore_intake (s : State) (f : Store → Store) : (s.updStore f).intake = s.intake := rfl
@[simp] theorem State.updStore_batch (s : State) (f : Store → Store) : (s.updStore f).batch = s.batch := rfl
@[simp] theorem State.updStore_keys (s : State) (f : Store → Store) : (s.updStore f).keys = s.keys := rfl
@[simp] theorem State.updStore_keyLine (s : State) (f : Store → Store) : (s.updStore f).keyLine = s.keyLine := rfl
@[simp] theorem State.updStore_lp (s : State) (f : Store → Store) : (s.updStore f).lp = s.lp := rfl
@[simp] theorem State.updStore_up (s : State) (f : Store → Store) : (s.updStore f).up = s.up := rfl
@[simp] theorem State.updStore_cfg (s : State) (f : Store → Store) : (s.updStore f).cfg = s.cfg := rfl
@[simp] theorem State.updStore_choices (s : State) (f : Store → Store) : (s.updStore f).choices = s.choices := rfl

/-! ### updSpill -/

@[simp] theorem State.updSpill_pending (s : State) (f : Spill → Spill) : (s.updSpill f).pending = s.pending := rfl
@[simp] theorem State.updSpill_run (s : State) (f : Spill → Spill) : (s.updSpill f).run = s.run := rfl
@[simp] theorem State.updSpill_resetInput (s : State) (f : Spill → Spill) : (s.updSpill f).resetInput = s.resetInput := rfl
@[simp] theorem State.updSpill_marker (s : State) (f : Spill → Spill) : (s.updSpill f).marker = s.marker := rfl
@[simp] theorem State.updSpill_lanes (s : State) (f : Spill → Spill) : (s.updSpill f).lanes = s.lanes := rfl
@[simp] theorem State.updSpill_policy (s : State) (f : Spill → Spill) : (s.updSpill f).policy = s.policy := rfl
@[simp] theorem State.updSpill_engine (s : State) (f : Spill → Spill) : (s.updSpill f).engine = s.engine := rfl
@[simp] theorem State.updSpill_store (s : State) (f : Spill → Spill) : (s.updSpill f).store = s.store := rfl
@[simp] theorem State.updSpill_spill (s : State) (f : Spill → Spill) : (s.updSpill f).spill = f s.spill := rfl
@[simp] theorem State.updSpill_meter (s : State) (f : Spill → Spill) : (s.updSpill f).meter = s.meter := rfl
@[simp] theorem State.updSpill_link (s : State) (f : Spill → Spill) : (s.updSpill f).link = s.link := rfl
@[simp] theorem State.updSpill_intake (s : State) (f : Spill → Spill) : (s.updSpill f).intake = s.intake := rfl
@[simp] theorem State.updSpill_batch (s : State) (f : Spill → Spill) : (s.updSpill f).batch = s.batch := rfl
@[simp] theorem State.updSpill_keys (s : State) (f : Spill → Spill) : (s.updSpill f).keys = s.keys := rfl
@[simp] theorem State.updSpill_keyLine (s : State) (f : Spill → Spill) : (s.updSpill f).keyLine = s.keyLine := rfl
@[simp] theorem State.updSpill_lp (s : State) (f : Spill → Spill) : (s.updSpill f).lp = s.lp := rfl
@[simp] theorem State.updSpill_up (s : State) (f : Spill → Spill) : (s.updSpill f).up = s.up := rfl
@[simp] theorem State.updSpill_cfg (s : State) (f : Spill → Spill) : (s.updSpill f).cfg = s.cfg := rfl
@[simp] theorem State.updSpill_choices (s : State) (f : Spill → Spill) : (s.updSpill f).choices = s.choices := rfl

/-! ### setMeter -/

@[simp] theorem State.setMeter_pending (s : State) (e : Nat) : (s.setMeter e).pending = s.pending := rfl
@[simp] theorem State.setMeter_run (s : State) (e : Nat) : (s.setMeter e).run = s.run := rfl
@[simp] theorem State.setMeter_resetInput (s : State) (e : Nat) : (s.setMeter e).resetInput = s.resetInput := rfl
@[simp] theorem State.setMeter_marker (s : State) (e : Nat) : (s.setMeter e).marker = s.marker := rfl
@[simp] theorem State.setMeter_lanes (s : State) (e : Nat) : (s.setMeter e).lanes = s.lanes := rfl
@[simp] theorem State.setMeter_policy (s : State) (e : Nat) : (s.setMeter e).policy = s.policy := rfl
@[simp] theorem State.setMeter_engine (s : State) (e : Nat) : (s.setMeter e).engine = s.engine := rfl
@[simp] theorem State.setMeter_store (s : State) (e : Nat) : (s.setMeter e).store = s.store := rfl
@[simp] theorem State.setMeter_spill (s : State) (e : Nat) : (s.setMeter e).spill = s.spill := rfl
@[simp] theorem State.setMeter_meter (s : State) (e : Nat) : (s.setMeter e).meter = e := rfl
@[simp] theorem State.setMeter_link (s : State) (e : Nat) : (s.setMeter e).link = s.link := rfl
@[simp] theorem State.setMeter_intake (s : State) (e : Nat) : (s.setMeter e).intake = s.intake := rfl
@[simp] theorem State.setMeter_batch (s : State) (e : Nat) : (s.setMeter e).batch = s.batch := rfl
@[simp] theorem State.setMeter_keys (s : State) (e : Nat) : (s.setMeter e).keys = s.keys := rfl
@[simp] theorem State.setMeter_keyLine (s : State) (e : Nat) : (s.setMeter e).keyLine = s.keyLine := rfl
@[simp] theorem State.setMeter_lp (s : State) (e : Nat) : (s.setMeter e).lp = s.lp := rfl
@[simp] theorem State.setMeter_up (s : State) (e : Nat) : (s.setMeter e).up = s.up := rfl
@[simp] theorem State.setMeter_cfg (s : State) (e : Nat) : (s.setMeter e).cfg = s.cfg := rfl
@[simp] theorem State.setMeter_choices (s : State) (e : Nat) : (s.setMeter e).choices = s.choices := rfl

/-! ### setLink -/

@[simp] theorem State.setLink_pending (s : State) (l : Link) : (s.setLink l).pending = s.pending := rfl
@[simp] theorem State.setLink_run (s : State) (l : Link) : (s.setLink l).run = s.run := rfl
@[simp] theorem State.setLink_resetInput (s : State) (l : Link) : (s.setLink l).resetInput = s.resetInput := rfl
@[simp] theorem State.setLink_marker (s : State) (l : Link) : (s.setLink l).marker = s.marker := rfl
@[simp] theorem State.setLink_lanes (s : State) (l : Link) : (s.setLink l).lanes = s.lanes := rfl
@[simp] theorem State.setLink_policy (s : State) (l : Link) : (s.setLink l).policy = s.policy := rfl
@[simp] theorem State.setLink_engine (s : State) (l : Link) : (s.setLink l).engine = s.engine := rfl
@[simp] theorem State.setLink_store (s : State) (l : Link) : (s.setLink l).store = s.store := rfl
@[simp] theorem State.setLink_spill (s : State) (l : Link) : (s.setLink l).spill = s.spill := rfl
@[simp] theorem State.setLink_meter (s : State) (l : Link) : (s.setLink l).meter = s.meter := rfl
@[simp] theorem State.setLink_link (s : State) (l : Link) : (s.setLink l).link = l := rfl
@[simp] theorem State.setLink_intake (s : State) (l : Link) : (s.setLink l).intake = s.intake := rfl
@[simp] theorem State.setLink_batch (s : State) (l : Link) : (s.setLink l).batch = s.batch := rfl
@[simp] theorem State.setLink_keys (s : State) (l : Link) : (s.setLink l).keys = s.keys := rfl
@[simp] theorem State.setLink_keyLine (s : State) (l : Link) : (s.setLink l).keyLine = s.keyLine := rfl
@[simp] theorem State.setLink_lp (s : State) (l : Link) : (s.setLink l).lp = s.lp := rfl
@[simp] theorem State.setLink_up (s : State) (l : Link) : (s.setLink l).up = s.up := rfl
@[simp] theorem State.setLink_cfg (s : State) (l : Link) : (s.setLink l).cfg = s.cfg := rfl
@[simp] theorem State.setLink_choices (s : State) (l : Link) : (s.setLink l).choices = s.choices := rfl

/-! ### updIntake -/

@[simp] theorem State.updIntake_pending (s : State) (f : Intake → Intake) : (s.updIntake f).pending = s.pending := rfl
@[simp] theorem State.updIntake_run (s : State) (f : Intake → Intake) : (s.updIntake f).run = s.run := rfl
@[simp] theorem State.updIntake_resetInput (s : State) (f : Intake → Intake) : (s.updIntake f).resetInput = s.resetInput := rfl
@[simp] theorem State.updIntake_marker (s : State) (f : Intake → Intake) : (s.updIntake f).marker = s.marker := rfl
@[simp] theorem State.updIntake_lanes (s : State) (f : Intake → Intake) : (s.updIntake f).lanes = s.lanes := rfl
@[simp] theorem State.updIntake_policy (s : State) (f : Intake → Intake) : (s.updIntake f).policy = s.policy := rfl
@[simp] theorem State.updIntake_engine (s : State) (f : Intake → Intake) : (s.updIntake f).engine = s.engine := rfl
@[simp] theorem State.updIntake_store (s : State) (f : Intake → Intake) : (s.updIntake f).store = s.store := rfl
@[simp] theorem State.updIntake_spill (s : State) (f : Intake → Intake) : (s.updIntake f).spill = s.spill := rfl
@[simp] theorem State.updIntake_meter (s : State) (f : Intake → Intake) : (s.updIntake f).meter = s.meter := rfl
@[simp] theorem State.updIntake_link (s : State) (f : Intake → Intake) : (s.updIntake f).link = s.link := rfl
@[simp] theorem State.updIntake_intake (s : State) (f : Intake → Intake) : (s.updIntake f).intake = f s.intake := rfl
@[simp] theorem State.updIntake_batch (s : State) (f : Intake → Intake) : (s.updIntake f).batch = s.batch := rfl
@[simp] theorem State.updIntake_keys (s : State) (f : Intake → Intake) : (s.updIntake f).keys = s.keys := rfl
@[simp] theorem State.updIntake_keyLine (s : State) (f : Intake → Intake) : (s.updIntake f).keyLine = s.keyLine := rfl
@[simp] theorem State.updIntake_lp (s : State) (f : Intake → Intake) : (s.updIntake f).lp = s.lp := rfl
@[simp] theorem State.updIntake_up (s : State) (f : Intake → Intake) : (s.updIntake f).up = s.up := rfl
@[simp] theorem State.updIntake_cfg (s : State) (f : Intake → Intake) : (s.updIntake f).cfg = s.cfg := rfl
@[simp] theorem State.updIntake_choices (s : State) (f : Intake → Intake) : (s.updIntake f).choices = s.choices := rfl

/-! ### updBatch -/

@[simp] theorem State.updBatch_pending (s : State) (f : Batch → Batch) : (s.updBatch f).pending = s.pending := rfl
@[simp] theorem State.updBatch_run (s : State) (f : Batch → Batch) : (s.updBatch f).run = s.run := rfl
@[simp] theorem State.updBatch_resetInput (s : State) (f : Batch → Batch) : (s.updBatch f).resetInput = s.resetInput := rfl
@[simp] theorem State.updBatch_marker (s : State) (f : Batch → Batch) : (s.updBatch f).marker = s.marker := rfl
@[simp] theorem State.updBatch_lanes (s : State) (f : Batch → Batch) : (s.updBatch f).lanes = s.lanes := rfl
@[simp] theorem State.updBatch_policy (s : State) (f : Batch → Batch) : (s.updBatch f).policy = s.policy := rfl
@[simp] theorem State.updBatch_engine (s : State) (f : Batch → Batch) : (s.updBatch f).engine = s.engine := rfl
@[simp] theorem State.updBatch_store (s : State) (f : Batch → Batch) : (s.updBatch f).store = s.store := rfl
@[simp] theorem State.updBatch_spill (s : State) (f : Batch → Batch) : (s.updBatch f).spill = s.spill := rfl
@[simp] theorem State.updBatch_meter (s : State) (f : Batch → Batch) : (s.updBatch f).meter = s.meter := rfl
@[simp] theorem State.updBatch_link (s : State) (f : Batch → Batch) : (s.updBatch f).link = s.link := rfl
@[simp] theorem State.updBatch_intake (s : State) (f : Batch → Batch) : (s.updBatch f).intake = s.intake := rfl
@[simp] theorem State.updBatch_batch (s : State) (f : Batch → Batch) : (s.updBatch f).batch = f s.batch := rfl
@[simp] theorem State.updBatch_keys (s : State) (f : Batch → Batch) : (s.updBatch f).keys = s.keys := rfl
@[simp] theorem State.updBatch_keyLine (s : State) (f : Batch → Batch) : (s.updBatch f).keyLine = s.keyLine := rfl
@[simp] theorem State.updBatch_lp (s : State) (f : Batch → Batch) : (s.updBatch f).lp = s.lp := rfl
@[simp] theorem State.updBatch_up (s : State) (f : Batch → Batch) : (s.updBatch f).up = s.up := rfl
@[simp] theorem State.updBatch_cfg (s : State) (f : Batch → Batch) : (s.updBatch f).cfg = s.cfg := rfl
@[simp] theorem State.updBatch_choices (s : State) (f : Batch → Batch) : (s.updBatch f).choices = s.choices := rfl

/-! ### updKeys -/

@[simp] theorem State.updKeys_pending (s : State) (f : KeyTable → KeyTable) : (s.updKeys f).pending = s.pending := rfl
@[simp] theorem State.updKeys_run (s : State) (f : KeyTable → KeyTable) : (s.updKeys f).run = s.run := rfl
@[simp] theorem State.updKeys_resetInput (s : State) (f : KeyTable → KeyTable) : (s.updKeys f).resetInput = s.resetInput := rfl
@[simp] theorem State.updKeys_marker (s : State) (f : KeyTable → KeyTable) : (s.updKeys f).marker = s.marker := rfl
@[simp] theorem State.updKeys_lanes (s : State) (f : KeyTable → KeyTable) : (s.updKeys f).lanes = s.lanes := rfl
@[simp] theorem State.updKeys_policy (s : State) (f : KeyTable → KeyTable) : (s.updKeys f).policy = s.policy := rfl
@[simp] theorem State.updKeys_engine (s : State) (f : KeyTable → KeyTable) : (s.updKeys f).engine = s.engine := rfl
@[simp] theorem State.updKeys_store (s : State) (f : KeyTable → KeyTable) : (s.updKeys f).store = s.store := rfl
@[simp] theorem State.updKeys_spill (s : State) (f : KeyTable → KeyTable) : (s.updKeys f).spill = s.spill := rfl
@[simp] theorem State.updKeys_meter (s : State) (f : KeyTable → KeyTable) : (s.updKeys f).meter = s.meter := rfl
@[simp] theorem State.updKeys_link (s : State) (f : KeyTable → KeyTable) : (s.updKeys f).link = s.link := rfl
@[simp] theorem State.updKeys_intake (s : State) (f : KeyTable → KeyTable) : (s.updKeys f).intake = s.intake := rfl
@[simp] theorem State.updKeys_batch (s : State) (f : KeyTable → KeyTable) : (s.updKeys f).batch = s.batch := rfl
@[simp] theorem State.updKeys_keys (s : State) (f : KeyTable → KeyTable) : (s.updKeys f).keys = f s.keys := rfl
@[simp] theorem State.updKeys_keyLine (s : State) (f : KeyTable → KeyTable) : (s.updKeys f).keyLine = s.keyLine := rfl
@[simp] theorem State.updKeys_lp (s : State) (f : KeyTable → KeyTable) : (s.updKeys f).lp = s.lp := rfl
@[simp] theorem State.updKeys_up (s : State) (f : KeyTable → KeyTable) : (s.updKeys f).up = s.up := rfl
@[simp] theorem State.updKeys_cfg (s : State) (f : KeyTable → KeyTable) : (s.updKeys f).cfg = s.cfg := rfl
@[simp] theorem State.updKeys_choices (s : State) (f : KeyTable → KeyTable) : (s.updKeys f).choices = s.choices := rfl

/-! ### setKeyLine -/

@[simp] theorem State.setKeyLine_pending (s : State) (r : Receiver) : (s.setKeyLine r).pending = s.pending := rfl
@[simp] theorem State.setKeyLine_run (s : State) (r : Receiver) : (s.setKeyLine r).run = s.run := rfl
@[simp] theorem State.setKeyLine_resetInput (s : State) (r : Receiver) : (s.setKeyLine r).resetInput = s.resetInput := rfl
@[simp] theorem State.setKeyLine_marker (s : State) (r : Receiver) : (s.setKeyLine r).marker = s.marker := rfl
@[simp] theorem State.setKeyLine_lanes (s : State) (r : Receiver) : (s.setKeyLine r).lanes = s.lanes := rfl
@[simp] theorem State.setKeyLine_policy (s : State) (r : Receiver) : (s.setKeyLine r).policy = s.policy := rfl
@[simp] theorem State.setKeyLine_engine (s : State) (r : Receiver) : (s.setKeyLine r).engine = s.engine := rfl
@[simp] theorem State.setKeyLine_store (s : State) (r : Receiver) : (s.setKeyLine r).store = s.store := rfl
@[simp] theorem State.setKeyLine_spill (s : State) (r : Receiver) : (s.setKeyLine r).spill = s.spill := rfl
@[simp] theorem State.setKeyLine_meter (s : State) (r : Receiver) : (s.setKeyLine r).meter = s.meter := rfl
@[simp] theorem State.setKeyLine_link (s : State) (r : Receiver) : (s.setKeyLine r).link = s.link := rfl
@[simp] theorem State.setKeyLine_intake (s : State) (r : Receiver) : (s.setKeyLine r).intake = s.intake := rfl
@[simp] theorem State.setKeyLine_batch (s : State) (r : Receiver) : (s.setKeyLine r).batch = s.batch := rfl
@[simp] theorem State.setKeyLine_keys (s : State) (r : Receiver) : (s.setKeyLine r).keys = s.keys := rfl
@[simp] theorem State.setKeyLine_keyLine (s : State) (r : Receiver) : (s.setKeyLine r).keyLine = r := rfl
@[simp] theorem State.setKeyLine_lp (s : State) (r : Receiver) : (s.setKeyLine r).lp = s.lp := rfl
@[simp] theorem State.setKeyLine_up (s : State) (r : Receiver) : (s.setKeyLine r).up = s.up := rfl
@[simp] theorem State.setKeyLine_cfg (s : State) (r : Receiver) : (s.setKeyLine r).cfg = s.cfg := rfl
@[simp] theorem State.setKeyLine_choices (s : State) (r : Receiver) : (s.setKeyLine r).choices = s.choices := rfl

/-! ### setCfg -/

@[simp] theorem State.setCfg_pending (s : State) (c : Settings) : (s.setCfg c).pending = s.pending := rfl
@[simp] theorem State.setCfg_run (s : State) (c : Settings) : (s.setCfg c).run = s.run := rfl
@[simp] theorem State.setCfg_resetInput (s : State) (c : Settings) : (s.setCfg c).resetInput = s.resetInput := rfl
@[simp] theorem State.setCfg_marker (s : State) (c : Settings) : (s.setCfg c).marker = s.marker := rfl
@[simp] theorem State.setCfg_lanes (s : State) (c : Settings) : (s.setCfg c).lanes = s.lanes := rfl
@[simp] theorem State.setCfg_policy (s : State) (c : Settings) : (s.setCfg c).policy = s.policy := rfl
@[simp] theorem State.setCfg_engine (s : State) (c : Settings) : (s.setCfg c).engine = s.engine := rfl
@[simp] theorem State.setCfg_store (s : State) (c : Settings) : (s.setCfg c).store = s.store := rfl
@[simp] theorem State.setCfg_spill (s : State) (c : Settings) : (s.setCfg c).spill = s.spill := rfl
@[simp] theorem State.setCfg_meter (s : State) (c : Settings) : (s.setCfg c).meter = s.meter := rfl
@[simp] theorem State.setCfg_link (s : State) (c : Settings) : (s.setCfg c).link = s.link := rfl
@[simp] theorem State.setCfg_intake (s : State) (c : Settings) : (s.setCfg c).intake = s.intake := rfl
@[simp] theorem State.setCfg_batch (s : State) (c : Settings) : (s.setCfg c).batch = s.batch := rfl
@[simp] theorem State.setCfg_keys (s : State) (c : Settings) : (s.setCfg c).keys = s.keys := rfl
@[simp] theorem State.setCfg_keyLine (s : State) (c : Settings) : (s.setCfg c).keyLine = s.keyLine := rfl
@[simp] theorem State.setCfg_lp (s : State) (c : Settings) : (s.setCfg c).lp = s.lp := rfl
@[simp] theorem State.setCfg_up (s : State) (c : Settings) : (s.setCfg c).up = s.up := rfl
@[simp] theorem State.setCfg_cfg (s : State) (c : Settings) : (s.setCfg c).cfg = c := rfl
@[simp] theorem State.setCfg_choices (s : State) (c : Settings) : (s.setCfg c).choices = s.choices := rfl

/-! ### nextChoice -/

@[simp] theorem State.nextChoice_pending (s : State) : (s.nextChoice).pending = s.pending := rfl
@[simp] theorem State.nextChoice_run (s : State) : (s.nextChoice).run = s.run := rfl
@[simp] theorem State.nextChoice_resetInput (s : State) : (s.nextChoice).resetInput = s.resetInput := rfl
@[simp] theorem State.nextChoice_marker (s : State) : (s.nextChoice).marker = s.marker := rfl
@[simp] theorem State.nextChoice_lanes (s : State) : (s.nextChoice).lanes = s.lanes := rfl
@[simp] theorem State.nextChoice_policy (s : State) : (s.nextChoice).policy = s.policy := rfl
@[simp] theorem State.nextChoice_engine (s : State) : (s.nextChoice).engine = s.engine := rfl
@[simp] theorem State.nextChoice_store (s : State) : (s.nextChoice).store = s.store := rfl
@[simp] theorem State.nextChoice_spill (s : State) : (s.nextChoice).spill = s.spill := rfl
@[simp] theorem State.nextChoice_meter (s : State) : (s.nextChoice).meter = s.meter := rfl
@[simp] theorem State.nextChoice_link (s : State) : (s.nextChoice).link = s.link := rfl
@[simp] theorem State.nextChoice_intake (s : State) : (s.nextChoice).intake = s.intake := rfl
@[simp] theorem State.nextChoice_batch (s : State) : (s.nextChoice).batch = s.batch := rfl
@[simp] theorem State.nextChoice_keys (s : State) : (s.nextChoice).keys = s.keys := rfl
@[simp] theorem State.nextChoice_keyLine (s : State) : (s.nextChoice).keyLine = s.keyLine := rfl
@[simp] theorem State.nextChoice_lp (s : State) : (s.nextChoice).lp = s.lp := rfl
@[simp] theorem State.nextChoice_up (s : State) : (s.nextChoice).up = s.up := rfl
@[simp] theorem State.nextChoice_cfg (s : State) : (s.nextChoice).cfg = s.cfg := rfl
@[simp] theorem State.nextChoice_choices (s : State) : (s.nextChoice).choices = s.choices + 1 := rfl

/-! ### updLane -/

@[simp] theorem State.updLane_pending (s : State) (l : Fin 16) (f : Lane → Lane) : (s.updLane l f).pending = s.pending := rfl
@[simp] theorem State.updLane_run (s : State) (l : Fin 16) (f : Lane → Lane) : (s.updLane l f).run = s.run := rfl
@[simp] theorem State.updLane_resetInput (s : State) (l : Fin 16) (f : Lane → Lane) : (s.updLane l f).resetInput = s.resetInput := rfl
@[simp] theorem State.updLane_marker (s : State) (l : Fin 16) (f : Lane → Lane) : (s.updLane l f).marker = s.marker := rfl
@[simp] theorem State.updLane_lanes (s : State) (l : Fin 16) (f : Lane → Lane) : (s.updLane l f).lanes = s.lanes.set l (f s.lanes[l]) := rfl
@[simp] theorem State.updLane_policy (s : State) (l : Fin 16) (f : Lane → Lane) : (s.updLane l f).policy = s.policy := rfl
@[simp] theorem State.updLane_engine (s : State) (l : Fin 16) (f : Lane → Lane) : (s.updLane l f).engine = s.engine := rfl
@[simp] theorem State.updLane_store (s : State) (l : Fin 16) (f : Lane → Lane) : (s.updLane l f).store = s.store := rfl
@[simp] theorem State.updLane_spill (s : State) (l : Fin 16) (f : Lane → Lane) : (s.updLane l f).spill = s.spill := rfl
@[simp] theorem State.updLane_meter (s : State) (l : Fin 16) (f : Lane → Lane) : (s.updLane l f).meter = s.meter := rfl
@[simp] theorem State.updLane_link (s : State) (l : Fin 16) (f : Lane → Lane) : (s.updLane l f).link = s.link := rfl
@[simp] theorem State.updLane_intake (s : State) (l : Fin 16) (f : Lane → Lane) : (s.updLane l f).intake = s.intake := rfl
@[simp] theorem State.updLane_batch (s : State) (l : Fin 16) (f : Lane → Lane) : (s.updLane l f).batch = s.batch := rfl
@[simp] theorem State.updLane_keys (s : State) (l : Fin 16) (f : Lane → Lane) : (s.updLane l f).keys = s.keys := rfl
@[simp] theorem State.updLane_keyLine (s : State) (l : Fin 16) (f : Lane → Lane) : (s.updLane l f).keyLine = s.keyLine := rfl
@[simp] theorem State.updLane_lp (s : State) (l : Fin 16) (f : Lane → Lane) : (s.updLane l f).lp = s.lp := rfl
@[simp] theorem State.updLane_up (s : State) (l : Fin 16) (f : Lane → Lane) : (s.updLane l f).up = s.up := rfl
@[simp] theorem State.updLane_cfg (s : State) (l : Fin 16) (f : Lane → Lane) : (s.updLane l f).cfg = s.cfg := rfl
@[simp] theorem State.updLane_choices (s : State) (l : Fin 16) (f : Lane → Lane) : (s.updLane l f).choices = s.choices := rfl

/-! ### updPort -/

@[simp] theorem State.updPort_pending (s : State) (p : PortId) (f : Port → Port) : (s.updPort p f).pending = s.pending := by
  cases p <;> rfl
@[simp] theorem State.updPort_run (s : State) (p : PortId) (f : Port → Port) : (s.updPort p f).run = s.run := by
  cases p <;> rfl
@[simp] theorem State.updPort_resetInput (s : State) (p : PortId) (f : Port → Port) : (s.updPort p f).resetInput = s.resetInput := by
  cases p <;> rfl
@[simp] theorem State.updPort_marker (s : State) (p : PortId) (f : Port → Port) : (s.updPort p f).marker = s.marker := by
  cases p <;> rfl
@[simp] theorem State.updPort_lanes (s : State) (p : PortId) (f : Port → Port) : (s.updPort p f).lanes = s.lanes := by
  cases p <;> rfl
@[simp] theorem State.updPort_policy (s : State) (p : PortId) (f : Port → Port) : (s.updPort p f).policy = s.policy := by
  cases p <;> rfl
@[simp] theorem State.updPort_engine (s : State) (p : PortId) (f : Port → Port) : (s.updPort p f).engine = s.engine := by
  cases p <;> rfl
@[simp] theorem State.updPort_store (s : State) (p : PortId) (f : Port → Port) : (s.updPort p f).store = s.store := by
  cases p <;> rfl
@[simp] theorem State.updPort_spill (s : State) (p : PortId) (f : Port → Port) : (s.updPort p f).spill = s.spill := by
  cases p <;> rfl
@[simp] theorem State.updPort_meter (s : State) (p : PortId) (f : Port → Port) : (s.updPort p f).meter = s.meter := by
  cases p <;> rfl
@[simp] theorem State.updPort_link (s : State) (p : PortId) (f : Port → Port) : (s.updPort p f).link = s.link := by
  cases p <;> rfl
@[simp] theorem State.updPort_intake (s : State) (p : PortId) (f : Port → Port) : (s.updPort p f).intake = s.intake := by
  cases p <;> rfl
@[simp] theorem State.updPort_batch (s : State) (p : PortId) (f : Port → Port) : (s.updPort p f).batch = s.batch := by
  cases p <;> rfl
@[simp] theorem State.updPort_keys (s : State) (p : PortId) (f : Port → Port) : (s.updPort p f).keys = s.keys := by
  cases p <;> rfl
@[simp] theorem State.updPort_keyLine (s : State) (p : PortId) (f : Port → Port) : (s.updPort p f).keyLine = s.keyLine := by
  cases p <;> rfl
@[simp] theorem State.updPort_cfg (s : State) (p : PortId) (f : Port → Port) : (s.updPort p f).cfg = s.cfg := by
  cases p <;> rfl
@[simp] theorem State.updPort_choices (s : State) (p : PortId) (f : Port → Port) : (s.updPort p f).choices = s.choices := by
  cases p <;> rfl
@[simp] theorem State.updPort_lp_lp (s : State) (f : Port → Port) : (s.updPort .lp f).lp = f s.lp := rfl
@[simp] theorem State.updPort_lp_up (s : State) (f : Port → Port) : (s.updPort .lp f).up = s.up := rfl
@[simp] theorem State.updPort_up_lp (s : State) (f : Port → Port) : (s.updPort .up f).lp = s.lp := rfl
@[simp] theorem State.updPort_up_up (s : State) (f : Port → Port) : (s.updPort .up f).up = f s.up := rfl
@[simp] theorem State.port_lp (s : State) : s.port .lp = s.lp := rfl
@[simp] theorem State.port_up (s : State) : s.port .up = s.up := rfl
@[simp] theorem State.updPort_port (s : State) (p : PortId) (f : Port → Port) : (s.updPort p f).port p = f (s.port p) := by
  cases p <;> rfl
@[simp] theorem State.updPort_updPort (s : State) (p : PortId) (f g : Port → Port) :
    (s.updPort p f).updPort p g = s.updPort p fun q => g (f q) := by
  cases p <;> rfl

/-! ### post -/

@[simp] theorem State.post_pending (s : State) (p : PortId) (e : Event) :
    (s.post p e).pending = s.pending := by
  cases p <;> rfl
@[simp] theorem State.post_run (s : State) (p : PortId) (e : Event) :
    (s.post p e).run = s.run := by
  cases p <;> rfl
@[simp] theorem State.post_resetInput (s : State) (p : PortId) (e : Event) :
    (s.post p e).resetInput = s.resetInput := by
  cases p <;> rfl
@[simp] theorem State.post_marker (s : State) (p : PortId) (e : Event) :
    (s.post p e).marker = s.marker := by
  cases p <;> rfl
@[simp] theorem State.post_lanes (s : State) (p : PortId) (e : Event) :
    (s.post p e).lanes = s.lanes := by
  cases p <;> rfl
@[simp] theorem State.post_policy (s : State) (p : PortId) (e : Event) :
    (s.post p e).policy = s.policy := by
  cases p <;> rfl
@[simp] theorem State.post_engine (s : State) (p : PortId) (e : Event) :
    (s.post p e).engine = s.engine := by
  cases p <;> rfl
@[simp] theorem State.post_store (s : State) (p : PortId) (e : Event) :
    (s.post p e).store = s.store := by
  cases p <;> rfl
@[simp] theorem State.post_spill (s : State) (p : PortId) (e : Event) :
    (s.post p e).spill = s.spill := by
  cases p <;> rfl
@[simp] theorem State.post_meter (s : State) (p : PortId) (e : Event) :
    (s.post p e).meter = s.meter := by
  cases p <;> rfl
@[simp] theorem State.post_link (s : State) (p : PortId) (e : Event) :
    (s.post p e).link = s.link := by
  cases p <;> rfl
@[simp] theorem State.post_intake (s : State) (p : PortId) (e : Event) :
    (s.post p e).intake = s.intake := by
  cases p <;> rfl
@[simp] theorem State.post_batch (s : State) (p : PortId) (e : Event) :
    (s.post p e).batch = s.batch := by
  cases p <;> rfl
@[simp] theorem State.post_keys (s : State) (p : PortId) (e : Event) :
    (s.post p e).keys = s.keys := by
  cases p <;> rfl
@[simp] theorem State.post_keyLine (s : State) (p : PortId) (e : Event) :
    (s.post p e).keyLine = s.keyLine := by
  cases p <;> rfl
@[simp] theorem State.post_cfg (s : State) (p : PortId) (e : Event) :
    (s.post p e).cfg = s.cfg := by
  cases p <;> rfl
@[simp] theorem State.post_choices (s : State) (p : PortId) (e : Event) :
    (s.post p e).choices = s.choices := by
  cases p <;> rfl

/-! ### postBoth -/

@[simp] theorem State.postBoth_pending (s : State) (e : Event) :
    (s.postBoth e).pending = s.pending := rfl
@[simp] theorem State.postBoth_run (s : State) (e : Event) :
    (s.postBoth e).run = s.run := rfl
@[simp] theorem State.postBoth_resetInput (s : State) (e : Event) :
    (s.postBoth e).resetInput = s.resetInput := rfl
@[simp] theorem State.postBoth_marker (s : State) (e : Event) :
    (s.postBoth e).marker = s.marker := rfl
@[simp] theorem State.postBoth_lanes (s : State) (e : Event) :
    (s.postBoth e).lanes = s.lanes := rfl
@[simp] theorem State.postBoth_policy (s : State) (e : Event) :
    (s.postBoth e).policy = s.policy := rfl
@[simp] theorem State.postBoth_engine (s : State) (e : Event) :
    (s.postBoth e).engine = s.engine := rfl
@[simp] theorem State.postBoth_store (s : State) (e : Event) :
    (s.postBoth e).store = s.store := rfl
@[simp] theorem State.postBoth_spill (s : State) (e : Event) :
    (s.postBoth e).spill = s.spill := rfl
@[simp] theorem State.postBoth_meter (s : State) (e : Event) :
    (s.postBoth e).meter = s.meter := rfl
@[simp] theorem State.postBoth_link (s : State) (e : Event) :
    (s.postBoth e).link = s.link := rfl
@[simp] theorem State.postBoth_intake (s : State) (e : Event) :
    (s.postBoth e).intake = s.intake := rfl
@[simp] theorem State.postBoth_batch (s : State) (e : Event) :
    (s.postBoth e).batch = s.batch := rfl
@[simp] theorem State.postBoth_keys (s : State) (e : Event) :
    (s.postBoth e).keys = s.keys := rfl
@[simp] theorem State.postBoth_keyLine (s : State) (e : Event) :
    (s.postBoth e).keyLine = s.keyLine := rfl
@[simp] theorem State.postBoth_cfg (s : State) (e : Event) :
    (s.postBoth e).cfg = s.cfg := rfl
@[simp] theorem State.postBoth_choices (s : State) (e : Event) :
    (s.postBoth e).choices = s.choices := rfl

/-! ### recordRefusal -/

@[simp] theorem State.recordRefusal_pending (s : State) (p : PortId) (t : Target) (i : Word) (h : Header) (r : Reason) :
    (s.recordRefusal p t i h r).pending = s.pending := by
  cases p <;> rfl
@[simp] theorem State.recordRefusal_run (s : State) (p : PortId) (t : Target) (i : Word) (h : Header) (r : Reason) :
    (s.recordRefusal p t i h r).run = s.run := by
  cases p <;> rfl
@[simp] theorem State.recordRefusal_resetInput (s : State) (p : PortId) (t : Target) (i : Word) (h : Header) (r : Reason) :
    (s.recordRefusal p t i h r).resetInput = s.resetInput := by
  cases p <;> rfl
@[simp] theorem State.recordRefusal_marker (s : State) (p : PortId) (t : Target) (i : Word) (h : Header) (r : Reason) :
    (s.recordRefusal p t i h r).marker = s.marker := by
  cases p <;> rfl
@[simp] theorem State.recordRefusal_lanes (s : State) (p : PortId) (t : Target) (i : Word) (h : Header) (r : Reason) :
    (s.recordRefusal p t i h r).lanes = s.lanes := by
  cases p <;> rfl
@[simp] theorem State.recordRefusal_policy (s : State) (p : PortId) (t : Target) (i : Word) (h : Header) (r : Reason) :
    (s.recordRefusal p t i h r).policy = s.policy := by
  cases p <;> rfl
@[simp] theorem State.recordRefusal_engine (s : State) (p : PortId) (t : Target) (i : Word) (h : Header) (r : Reason) :
    (s.recordRefusal p t i h r).engine = s.engine := by
  cases p <;> rfl
@[simp] theorem State.recordRefusal_store (s : State) (p : PortId) (t : Target) (i : Word) (h : Header) (r : Reason) :
    (s.recordRefusal p t i h r).store = s.store := by
  cases p <;> rfl
@[simp] theorem State.recordRefusal_spill (s : State) (p : PortId) (t : Target) (i : Word) (h : Header) (r : Reason) :
    (s.recordRefusal p t i h r).spill = s.spill := by
  cases p <;> rfl
@[simp] theorem State.recordRefusal_meter (s : State) (p : PortId) (t : Target) (i : Word) (h : Header) (r : Reason) :
    (s.recordRefusal p t i h r).meter = s.meter := by
  cases p <;> rfl
@[simp] theorem State.recordRefusal_link (s : State) (p : PortId) (t : Target) (i : Word) (h : Header) (r : Reason) :
    (s.recordRefusal p t i h r).link = s.link := by
  cases p <;> rfl
@[simp] theorem State.recordRefusal_intake (s : State) (p : PortId) (t : Target) (i : Word) (h : Header) (r : Reason) :
    (s.recordRefusal p t i h r).intake = s.intake := by
  cases p <;> rfl
@[simp] theorem State.recordRefusal_batch (s : State) (p : PortId) (t : Target) (i : Word) (h : Header) (r : Reason) :
    (s.recordRefusal p t i h r).batch = s.batch := by
  cases p <;> rfl
@[simp] theorem State.recordRefusal_keys (s : State) (p : PortId) (t : Target) (i : Word) (h : Header) (r : Reason) :
    (s.recordRefusal p t i h r).keys = s.keys := by
  cases p <;> rfl
@[simp] theorem State.recordRefusal_keyLine (s : State) (p : PortId) (t : Target) (i : Word) (h : Header) (r : Reason) :
    (s.recordRefusal p t i h r).keyLine = s.keyLine := by
  cases p <;> rfl
@[simp] theorem State.recordRefusal_cfg (s : State) (p : PortId) (t : Target) (i : Word) (h : Header) (r : Reason) :
    (s.recordRefusal p t i h r).cfg = s.cfg := by
  cases p <;> rfl
@[simp] theorem State.recordRefusal_choices (s : State) (p : PortId) (t : Target) (i : Word) (h : Header) (r : Reason) :
    (s.recordRefusal p t i h r).choices = s.choices := by
  cases p <;> rfl

/-! ### answerWith -/

@[simp] theorem State.answerWith_pending (s : State) (p : PortId) (st : ReadStatus) (h : Header) (ws : List Word) :
    (s.answerWith p st h ws).pending = s.pending := by
  cases p <;> rfl
@[simp] theorem State.answerWith_run (s : State) (p : PortId) (st : ReadStatus) (h : Header) (ws : List Word) :
    (s.answerWith p st h ws).run = s.run := by
  cases p <;> rfl
@[simp] theorem State.answerWith_resetInput (s : State) (p : PortId) (st : ReadStatus) (h : Header) (ws : List Word) :
    (s.answerWith p st h ws).resetInput = s.resetInput := by
  cases p <;> rfl
@[simp] theorem State.answerWith_marker (s : State) (p : PortId) (st : ReadStatus) (h : Header) (ws : List Word) :
    (s.answerWith p st h ws).marker = s.marker := by
  cases p <;> rfl
@[simp] theorem State.answerWith_lanes (s : State) (p : PortId) (st : ReadStatus) (h : Header) (ws : List Word) :
    (s.answerWith p st h ws).lanes = s.lanes := by
  cases p <;> rfl
@[simp] theorem State.answerWith_policy (s : State) (p : PortId) (st : ReadStatus) (h : Header) (ws : List Word) :
    (s.answerWith p st h ws).policy = s.policy := by
  cases p <;> rfl
@[simp] theorem State.answerWith_engine (s : State) (p : PortId) (st : ReadStatus) (h : Header) (ws : List Word) :
    (s.answerWith p st h ws).engine = s.engine := by
  cases p <;> rfl
@[simp] theorem State.answerWith_store (s : State) (p : PortId) (st : ReadStatus) (h : Header) (ws : List Word) :
    (s.answerWith p st h ws).store = s.store := by
  cases p <;> rfl
@[simp] theorem State.answerWith_spill (s : State) (p : PortId) (st : ReadStatus) (h : Header) (ws : List Word) :
    (s.answerWith p st h ws).spill = s.spill := by
  cases p <;> rfl
@[simp] theorem State.answerWith_meter (s : State) (p : PortId) (st : ReadStatus) (h : Header) (ws : List Word) :
    (s.answerWith p st h ws).meter = s.meter := by
  cases p <;> rfl
@[simp] theorem State.answerWith_link (s : State) (p : PortId) (st : ReadStatus) (h : Header) (ws : List Word) :
    (s.answerWith p st h ws).link = s.link := by
  cases p <;> rfl
@[simp] theorem State.answerWith_intake (s : State) (p : PortId) (st : ReadStatus) (h : Header) (ws : List Word) :
    (s.answerWith p st h ws).intake = s.intake := by
  cases p <;> rfl
@[simp] theorem State.answerWith_batch (s : State) (p : PortId) (st : ReadStatus) (h : Header) (ws : List Word) :
    (s.answerWith p st h ws).batch = s.batch := by
  cases p <;> rfl
@[simp] theorem State.answerWith_keys (s : State) (p : PortId) (st : ReadStatus) (h : Header) (ws : List Word) :
    (s.answerWith p st h ws).keys = s.keys := by
  cases p <;> rfl
@[simp] theorem State.answerWith_keyLine (s : State) (p : PortId) (st : ReadStatus) (h : Header) (ws : List Word) :
    (s.answerWith p st h ws).keyLine = s.keyLine := by
  cases p <;> rfl
@[simp] theorem State.answerWith_cfg (s : State) (p : PortId) (st : ReadStatus) (h : Header) (ws : List Word) :
    (s.answerWith p st h ws).cfg = s.cfg := by
  cases p <;> rfl
@[simp] theorem State.answerWith_choices (s : State) (p : PortId) (st : ReadStatus) (h : Header) (ws : List Word) :
    (s.answerWith p st h ws).choices = s.choices := by
  cases p <;> rfl

/-! ### endAnswer -/

@[simp] theorem State.endAnswer_pending (s : State) (p : PortId) :
    (s.endAnswer p).pending = s.pending := by
  cases p <;> rfl
@[simp] theorem State.endAnswer_run (s : State) (p : PortId) :
    (s.endAnswer p).run = s.run := by
  cases p <;> rfl
@[simp] theorem State.endAnswer_resetInput (s : State) (p : PortId) :
    (s.endAnswer p).resetInput = s.resetInput := by
  cases p <;> rfl
@[simp] theorem State.endAnswer_marker (s : State) (p : PortId) :
    (s.endAnswer p).marker = s.marker := by
  cases p <;> rfl
@[simp] theorem State.endAnswer_lanes (s : State) (p : PortId) :
    (s.endAnswer p).lanes = s.lanes := by
  cases p <;> rfl
@[simp] theorem State.endAnswer_policy (s : State) (p : PortId) :
    (s.endAnswer p).policy = s.policy := by
  cases p <;> rfl
@[simp] theorem State.endAnswer_engine (s : State) (p : PortId) :
    (s.endAnswer p).engine = s.engine := by
  cases p <;> rfl
@[simp] theorem State.endAnswer_store (s : State) (p : PortId) :
    (s.endAnswer p).store = s.store := by
  cases p <;> rfl
@[simp] theorem State.endAnswer_spill (s : State) (p : PortId) :
    (s.endAnswer p).spill = s.spill := by
  cases p <;> rfl
@[simp] theorem State.endAnswer_meter (s : State) (p : PortId) :
    (s.endAnswer p).meter = s.meter := by
  cases p <;> rfl
@[simp] theorem State.endAnswer_link (s : State) (p : PortId) :
    (s.endAnswer p).link = s.link := by
  cases p <;> rfl
@[simp] theorem State.endAnswer_intake (s : State) (p : PortId) :
    (s.endAnswer p).intake = s.intake := by
  cases p <;> rfl
@[simp] theorem State.endAnswer_batch (s : State) (p : PortId) :
    (s.endAnswer p).batch = s.batch := by
  cases p <;> rfl
@[simp] theorem State.endAnswer_keys (s : State) (p : PortId) :
    (s.endAnswer p).keys = s.keys := by
  cases p <;> rfl
@[simp] theorem State.endAnswer_keyLine (s : State) (p : PortId) :
    (s.endAnswer p).keyLine = s.keyLine := by
  cases p <;> rfl
@[simp] theorem State.endAnswer_cfg (s : State) (p : PortId) :
    (s.endAnswer p).cfg = s.cfg := by
  cases p <;> rfl
@[simp] theorem State.endAnswer_choices (s : State) (p : PortId) :
    (s.endAnswer p).choices = s.choices := by
  cases p <;> rfl

/-! ### noteBurst -/

@[simp] theorem State.noteBurst_pending (s : State) (p : PortId) (n : Nat) : (s.noteBurst p n).pending = s.pending := by
  unfold State.noteBurst; split <;> simp
@[simp] theorem State.noteBurst_run (s : State) (p : PortId) (n : Nat) : (s.noteBurst p n).run = s.run := by
  unfold State.noteBurst; split <;> simp
@[simp] theorem State.noteBurst_resetInput (s : State) (p : PortId) (n : Nat) : (s.noteBurst p n).resetInput = s.resetInput := by
  unfold State.noteBurst; split <;> simp
@[simp] theorem State.noteBurst_marker (s : State) (p : PortId) (n : Nat) : (s.noteBurst p n).marker = s.marker := by
  unfold State.noteBurst; split <;> simp
@[simp] theorem State.noteBurst_lanes (s : State) (p : PortId) (n : Nat) : (s.noteBurst p n).lanes = s.lanes := by
  unfold State.noteBurst; split <;> simp
@[simp] theorem State.noteBurst_policy (s : State) (p : PortId) (n : Nat) : (s.noteBurst p n).policy = s.policy := by
  unfold State.noteBurst; split <;> simp
@[simp] theorem State.noteBurst_engine (s : State) (p : PortId) (n : Nat) : (s.noteBurst p n).engine = s.engine := by
  unfold State.noteBurst; split <;> simp
@[simp] theorem State.noteBurst_store (s : State) (p : PortId) (n : Nat) : (s.noteBurst p n).store = s.store := by
  unfold State.noteBurst; split <;> simp
@[simp] theorem State.noteBurst_spill (s : State) (p : PortId) (n : Nat) : (s.noteBurst p n).spill = s.spill := by
  unfold State.noteBurst; split <;> simp
@[simp] theorem State.noteBurst_meter (s : State) (p : PortId) (n : Nat) : (s.noteBurst p n).meter = s.meter := by
  unfold State.noteBurst; split <;> simp
@[simp] theorem State.noteBurst_link (s : State) (p : PortId) (n : Nat) : (s.noteBurst p n).link = s.link := by
  unfold State.noteBurst; split <;> simp
@[simp] theorem State.noteBurst_intake (s : State) (p : PortId) (n : Nat) : (s.noteBurst p n).intake = s.intake := by
  unfold State.noteBurst; split <;> simp
@[simp] theorem State.noteBurst_batch (s : State) (p : PortId) (n : Nat) : (s.noteBurst p n).batch = s.batch := by
  unfold State.noteBurst; split <;> simp
@[simp] theorem State.noteBurst_keys (s : State) (p : PortId) (n : Nat) : (s.noteBurst p n).keys = s.keys := by
  unfold State.noteBurst; split <;> simp
@[simp] theorem State.noteBurst_keyLine (s : State) (p : PortId) (n : Nat) : (s.noteBurst p n).keyLine = s.keyLine := by
  unfold State.noteBurst; split <;> simp
@[simp] theorem State.noteBurst_cfg (s : State) (p : PortId) (n : Nat) : (s.noteBurst p n).cfg = s.cfg := by
  unfold State.noteBurst; split <;> simp
@[simp] theorem State.noteBurst_choices (s : State) (p : PortId) (n : Nat) : (s.noteBurst p n).choices = s.choices := by
  unfold State.noteBurst; split <;> simp

end Sys2Proof.Machine
end

