-- ==== Sys2Proof/Laws/Frames.lean ====
section
/-! SUPPORT. What the shared operations leave unchanged: one lemma for each operation and field, and for the held and
posted transactions of both ports. -/

namespace Sys2Proof.Machine

@[simp] theorem State.post_held (s : State) (p : PortId) (e : Event) (q : PortId) :
    ((s.post p e).port q).held = (s.port q).held := by
  cases p <;> cases q <;> rfl
@[simp] theorem State.post_posted (s : State) (p : PortId) (e : Event) (q : PortId) :
    ((s.post p e).port q).posted = (s.port q).posted := by
  cases p <;> cases q <;> rfl
@[simp] theorem State.recordRefusal_held (s : State) (p : PortId) (t : Target) (i : Word) (h : Header) (r : Reason) (q : PortId) :
    ((s.recordRefusal p t i h r).port q).held = (s.port q).held := by
  cases p <;> cases q <;> rfl
@[simp] theorem State.recordRefusal_posted (s : State) (p : PortId) (t : Target) (i : Word) (h : Header) (r : Reason) (q : PortId) :
    ((s.recordRefusal p t i h r).port q).posted = (s.port q).posted := by
  cases p <;> cases q <;> rfl
@[simp] theorem State.answerWith_held (s : State) (p : PortId) (st : ReadStatus) (h : Header) (ws : List Word) (q : PortId) :
    ((s.answerWith p st h ws).port q).held = (s.port q).held := by
  cases p <;> cases q <;> rfl
@[simp] theorem State.answerWith_posted (s : State) (p : PortId) (st : ReadStatus) (h : Header) (ws : List Word) (q : PortId) :
    ((s.answerWith p st h ws).port q).posted = (s.port q).posted := by
  cases p <;> cases q <;> rfl
@[simp] theorem State.endAnswer_held (s : State) (p : PortId) (q : PortId) :
    ((s.endAnswer p).port q).held = (s.port q).held := by
  cases p <;> cases q <;> rfl
@[simp] theorem State.endAnswer_posted (s : State) (p : PortId) (q : PortId) :
    ((s.endAnswer p).port q).posted = (s.port q).posted := by
  cases p <;> cases q <;> rfl
@[simp] theorem State.postBoth_held (s : State) (e : Event) (q : PortId) :
    ((s.postBoth e).port q).held = (s.port q).held := by
  cases q <;> rfl
@[simp] theorem State.noteBurst_held (s : State) (p : PortId) (n : Nat) (q : PortId) :
    ((s.noteBurst p n).port q).held = (s.port q).held := by
  unfold State.noteBurst; split <;> cases p <;> cases q <;> rfl
@[simp] theorem State.postBoth_posted (s : State) (e : Event) (q : PortId) :
    ((s.postBoth e).port q).posted = (s.port q).posted := by
  cases q <;> rfl
@[simp] theorem State.noteBurst_posted (s : State) (p : PortId) (n : Nat) (q : PortId) :
    ((s.noteBurst p n).port q).posted = (s.port q).posted := by
  unfold State.noteBurst; split <;> cases p <;> cases q <;> rfl
@[simp] theorem State.setRun_port (s : State) (r : RunState) (q : PortId) : (s.setRun r).port q = s.port q := by
  cases q <;> rfl
@[simp] theorem State.setResetInput_port (s : State) (b : Bool) (q : PortId) : (s.setResetInput b).port q = s.port q := by
  cases q <;> rfl
@[simp] theorem State.setMarker_port (s : State) (b : Bool) (q : PortId) : (s.setMarker b).port q = s.port q := by
  cases q <;> rfl
@[simp] theorem State.updLanes_port (s : State) (f : Vector Lane 16 → Vector Lane 16) (q : PortId) : (s.updLanes f).port q = s.port q := by
  cases q <;> rfl
@[simp] theorem State.setPolicy_port (s : State) (x : Vector PolicyEntry 15) (q : PortId) : (s.setPolicy x).port q = s.port q := by
  cases q <;> rfl
@[simp] theorem State.updEngine_port (s : State) (f : Engine → Engine) (q : PortId) : (s.updEngine f).port q = s.port q := by
  cases q <;> rfl
@[simp] theorem State.updStore_port (s : State) (f : Store → Store) (q : PortId) : (s.updStore f).port q = s.port q := by
  cases q <;> rfl
@[simp] theorem State.updSpill_port (s : State) (f : Spill → Spill) (q : PortId) : (s.updSpill f).port q = s.port q := by
  cases q <;> rfl
@[simp] theorem State.setMeter_port (s : State) (e : Nat) (q : PortId) : (s.setMeter e).port q = s.port q := by
  cases q <;> rfl
@[simp] theorem State.setLink_port (s : State) (l : Link) (q : PortId) : (s.setLink l).port q = s.port q := by
  cases q <;> rfl
@[simp] theorem State.updIntake_port (s : State) (f : Intake → Intake) (q : PortId) : (s.updIntake f).port q = s.port q := by
  cases q <;> rfl
@[simp] theorem State.updBatch_port (s : State) (f : Batch → Batch) (q : PortId) : (s.updBatch f).port q = s.port q := by
  cases q <;> rfl
@[simp] theorem State.updKeys_port (s : State) (f : KeyTable → KeyTable) (q : PortId) : (s.updKeys f).port q = s.port q := by
  cases q <;> rfl
@[simp] theorem State.setKeyLine_port (s : State) (r : Receiver) (q : PortId) : (s.setKeyLine r).port q = s.port q := by
  cases q <;> rfl
@[simp] theorem State.setCfg_port (s : State) (c : Settings) (q : PortId) : (s.setCfg c).port q = s.port q := by
  cases q <;> rfl
@[simp] theorem State.nextChoice_port (s : State)  (q : PortId) : (s.nextChoice ).port q = s.port q := by
  cases q <;> rfl
@[simp] theorem State.updLane_port (s : State) (l : Fin 16) (f : Lane → Lane) (q : PortId) : (s.updLane l f).port q = s.port q := by
  cases q <;> rfl
@[simp] theorem State.post_lp_lp (s : State) (e : Event) : (s.post .lp e).lp = { s.lp with events := s.lp.events ||| e.bit } := rfl
@[simp] theorem State.post_up_up (s : State) (e : Event) : (s.post .up e).up = { s.up with events := s.up.events ||| e.bit } := rfl
@[simp] theorem State.post_lp_up (s : State) (e : Event) : (s.post .lp e).up = s.up := rfl
@[simp] theorem State.post_up_lp (s : State) (e : Event) : (s.post .up e).lp = s.lp := rfl
@[simp] theorem State.recordRefusal_lp_up (s : State) (t : Target) (i : Word) (h : Header) (r : Reason) : (s.recordRefusal .lp t i h r).up = s.up := rfl
@[simp] theorem State.recordRefusal_up_lp (s : State) (t : Target) (i : Word) (h : Header) (r : Reason) : (s.recordRefusal .up t i h r).lp = s.lp := rfl
@[simp] theorem State.answerWith_lp_up (s : State) (st : ReadStatus) (h : Header) (ws : List Word) : (s.answerWith .lp st h ws).up = s.up := rfl
@[simp] theorem State.answerWith_up_lp (s : State) (st : ReadStatus) (h : Header) (ws : List Word) : (s.answerWith .up st h ws).lp = s.lp := rfl
@[simp] theorem State.endAnswer_lp_up (s : State)  : (s.endAnswer .lp ).up = s.up := rfl
@[simp] theorem State.endAnswer_up_lp (s : State)  : (s.endAnswer .up ).lp = s.lp := rfl

/-! ### evalHigh -/

@[simp] theorem State.evalHigh_pending (s : State) : (s.evalHigh).pending = s.pending := by
  unfold State.evalHigh; (try dsimp only); (repeat' split) <;> simp
@[simp] theorem State.evalHigh_run (s : State) : (s.evalHigh).run = s.run := by
  unfold State.evalHigh; (try dsimp only); (repeat' split) <;> simp
@[simp] theorem State.evalHigh_resetInput (s : State) : (s.evalHigh).resetInput = s.resetInput := by
  unfold State.evalHigh; (try dsimp only); (repeat' split) <;> simp
@[simp] theorem State.evalHigh_marker (s : State) : (s.evalHigh).marker = s.marker := by
  unfold State.evalHigh; (try dsimp only); (repeat' split) <;> simp
@[simp] theorem State.evalHigh_lanes (s : State) : (s.evalHigh).lanes = s.lanes := by
  unfold State.evalHigh; (try dsimp only); (repeat' split) <;> simp
@[simp] theorem State.evalHigh_policy (s : State) : (s.evalHigh).policy = s.policy := by
  unfold State.evalHigh; (try dsimp only); (repeat' split) <;> simp
@[simp] theorem State.evalHigh_engine (s : State) : (s.evalHigh).engine = s.engine := by
  unfold State.evalHigh; (try dsimp only); (repeat' split) <;> simp
@[simp] theorem State.evalHigh_spill (s : State) : (s.evalHigh).spill = s.spill := by
  unfold State.evalHigh; (try dsimp only); (repeat' split) <;> simp
@[simp] theorem State.evalHigh_meter (s : State) : (s.evalHigh).meter = s.meter := by
  unfold State.evalHigh; (try dsimp only); (repeat' split) <;> simp
@[simp] theorem State.evalHigh_link (s : State) : (s.evalHigh).link = s.link := by
  unfold State.evalHigh; (try dsimp only); (repeat' split) <;> simp
@[simp] theorem State.evalHigh_intake (s : State) : (s.evalHigh).intake = s.intake := by
  unfold State.evalHigh; (try dsimp only); (repeat' split) <;> simp
@[simp] theorem State.evalHigh_batch (s : State) : (s.evalHigh).batch = s.batch := by
  unfold State.evalHigh; (try dsimp only); (repeat' split) <;> simp
@[simp] theorem State.evalHigh_keys (s : State) : (s.evalHigh).keys = s.keys := by
  unfold State.evalHigh; (try dsimp only); (repeat' split) <;> simp
@[simp] theorem State.evalHigh_keyLine (s : State) : (s.evalHigh).keyLine = s.keyLine := by
  unfold State.evalHigh; (try dsimp only); (repeat' split) <;> simp
@[simp] theorem State.evalHigh_cfg (s : State) : (s.evalHigh).cfg = s.cfg := by
  unfold State.evalHigh; (try dsimp only); (repeat' split) <;> simp
@[simp] theorem State.evalHigh_choices (s : State) : (s.evalHigh).choices = s.choices := by
  unfold State.evalHigh; (try dsimp only); (repeat' split) <;> simp
@[simp] theorem State.evalHigh_held (s : State) (q : PortId) : ((s.evalHigh).port q).held = (s.port q).held := by
  unfold State.evalHigh; (try dsimp only); (repeat' split) <;> simp
@[simp] theorem State.evalHigh_posted (s : State) (q : PortId) : ((s.evalHigh).port q).posted = (s.port q).posted := by
  unfold State.evalHigh; (try dsimp only); (repeat' split) <;> simp

/-! ### evalLow -/

@[simp] theorem State.evalLow_pending (s : State) : (s.evalLow).pending = s.pending := by
  unfold State.evalLow; (try dsimp only); (repeat' split) <;> simp
@[simp] theorem State.evalLow_run (s : State) : (s.evalLow).run = s.run := by
  unfold State.evalLow; (try dsimp only); (repeat' split) <;> simp
@[simp] theorem State.evalLow_resetInput (s : State) : (s.evalLow).resetInput = s.resetInput := by
  unfold State.evalLow; (try dsimp only); (repeat' split) <;> simp
@[simp] theorem State.evalLow_marker (s : State) : (s.evalLow).marker = s.marker := by
  unfold State.evalLow; (try dsimp only); (repeat' split) <;> simp
@[simp] theorem State.evalLow_lanes (s : State) : (s.evalLow).lanes = s.lanes := by
  unfold State.evalLow; (try dsimp only); (repeat' split) <;> simp
@[simp] theorem State.evalLow_policy (s : State) : (s.evalLow).policy = s.policy := by
  unfold State.evalLow; (try dsimp only); (repeat' split) <;> simp
@[simp] theorem State.evalLow_engine (s : State) : (s.evalLow).engine = s.engine := by
  unfold State.evalLow; (try dsimp only); (repeat' split) <;> simp
@[simp] theorem State.evalLow_spill (s : State) : (s.evalLow).spill = s.spill := by
  unfold State.evalLow; (try dsimp only); (repeat' split) <;> simp
@[simp] theorem State.evalLow_meter (s : State) : (s.evalLow).meter = s.meter := by
  unfold State.evalLow; (try dsimp only); (repeat' split) <;> simp
@[simp] theorem State.evalLow_link (s : State) : (s.evalLow).link = s.link := by
  unfold State.evalLow; (try dsimp only); (repeat' split) <;> simp
@[simp] theorem State.evalLow_intake (s : State) : (s.evalLow).intake = s.intake := by
  unfold State.evalLow; (try dsimp only); (repeat' split) <;> simp
@[simp] theorem State.evalLow_batch (s : State) : (s.evalLow).batch = s.batch := by
  unfold State.evalLow; (try dsimp only); (repeat' split) <;> simp
@[simp] theorem State.evalLow_keys (s : State) : (s.evalLow).keys = s.keys := by
  unfold State.evalLow; (try dsimp only); (repeat' split) <;> simp
@[simp] theorem State.evalLow_keyLine (s : State) : (s.evalLow).keyLine = s.keyLine := by
  unfold State.evalLow; (try dsimp only); (repeat' split) <;> simp
@[simp] theorem State.evalLow_lp (s : State) : (s.evalLow).lp = s.lp := by
  unfold State.evalLow; (try dsimp only); (repeat' split) <;> simp
@[simp] theorem State.evalLow_up (s : State) : (s.evalLow).up = s.up := by
  unfold State.evalLow; (try dsimp only); (repeat' split) <;> simp
@[simp] theorem State.evalLow_cfg (s : State) : (s.evalLow).cfg = s.cfg := by
  unfold State.evalLow; (try dsimp only); (repeat' split) <;> simp
@[simp] theorem State.evalLow_choices (s : State) : (s.evalLow).choices = s.choices := by
  unfold State.evalLow; (try dsimp only); (repeat' split) <;> simp
@[simp] theorem State.evalLow_held (s : State) (q : PortId) : ((s.evalLow).port q).held = (s.port q).held := by
  unfold State.evalLow; (try dsimp only); (repeat' split) <;> simp
@[simp] theorem State.evalLow_posted (s : State) (q : PortId) : ((s.evalLow).port q).posted = (s.port q).posted := by
  unfold State.evalLow; (try dsimp only); (repeat' split) <;> simp

/-! ### reclaim -/

@[simp] theorem State.reclaim_pending (s : State) : (s.reclaim).pending = s.pending := by
  unfold State.reclaim; (try dsimp only); (repeat' split) <;> simp
@[simp] theorem State.reclaim_run (s : State) : (s.reclaim).run = s.run := by
  unfold State.reclaim; (try dsimp only); (repeat' split) <;> simp
@[simp] theorem State.reclaim_resetInput (s : State) : (s.reclaim).resetInput = s.resetInput := by
  unfold State.reclaim; (try dsimp only); (repeat' split) <;> simp
@[simp] theorem State.reclaim_marker (s : State) : (s.reclaim).marker = s.marker := by
  unfold State.reclaim; (try dsimp only); (repeat' split) <;> simp
@[simp] theorem State.reclaim_lanes (s : State) : (s.reclaim).lanes = s.lanes := by
  unfold State.reclaim; (try dsimp only); (repeat' split) <;> simp
@[simp] theorem State.reclaim_policy (s : State) : (s.reclaim).policy = s.policy := by
  unfold State.reclaim; (try dsimp only); (repeat' split) <;> simp
@[simp] theorem State.reclaim_engine (s : State) : (s.reclaim).engine = s.engine := by
  unfold State.reclaim; (try dsimp only); (repeat' split) <;> simp
@[simp] theorem State.reclaim_spill (s : State) : (s.reclaim).spill = s.spill := by
  unfold State.reclaim; (try dsimp only); (repeat' split) <;> simp
@[simp] theorem State.reclaim_meter (s : State) : (s.reclaim).meter = s.meter := by
  unfold State.reclaim; (try dsimp only); (repeat' split) <;> simp
@[simp] theorem State.reclaim_link (s : State) : (s.reclaim).link = s.link := by
  unfold State.reclaim; (try dsimp only); (repeat' split) <;> simp
@[simp] theorem State.reclaim_intake (s : State) : (s.reclaim).intake = s.intake := by
  unfold State.reclaim; (try dsimp only); (repeat' split) <;> simp
@[simp] theorem State.reclaim_batch (s : State) : (s.reclaim).batch = s.batch := by
  unfold State.reclaim; (try dsimp only); (repeat' split) <;> simp
@[simp] theorem State.reclaim_keys (s : State) : (s.reclaim).keys = s.keys := by
  unfold State.reclaim; (try dsimp only); (repeat' split) <;> simp
@[simp] theorem State.reclaim_keyLine (s : State) : (s.reclaim).keyLine = s.keyLine := by
  unfold State.reclaim; (try dsimp only); (repeat' split) <;> simp
@[simp] theorem State.reclaim_lp (s : State) : (s.reclaim).lp = s.lp := by
  unfold State.reclaim; (try dsimp only); (repeat' split) <;> simp
@[simp] theorem State.reclaim_up (s : State) : (s.reclaim).up = s.up := by
  unfold State.reclaim; (try dsimp only); (repeat' split) <;> simp
@[simp] theorem State.reclaim_cfg (s : State) : (s.reclaim).cfg = s.cfg := by
  unfold State.reclaim; (try dsimp only); (repeat' split) <;> simp
@[simp] theorem State.reclaim_choices (s : State) : (s.reclaim).choices = s.choices := by
  unfold State.reclaim; (try dsimp only); (repeat' split) <;> simp
@[simp] theorem State.reclaim_held (s : State) (q : PortId) : ((s.reclaim).port q).held = (s.port q).held := by
  unfold State.reclaim; (try dsimp only); (repeat' split) <;> simp
@[simp] theorem State.reclaim_posted (s : State) (q : PortId) : ((s.reclaim).port q).posted = (s.port q).posted := by
  unfold State.reclaim; (try dsimp only); (repeat' split) <;> simp

/-! ### clearAwaiting -/

@[simp] theorem State.clearAwaiting_pending (n : Nat) (s : State) : (s.clearAwaiting n).pending = s.pending := by
  unfold State.clearAwaiting; (try dsimp only); (repeat' split) <;> simp
@[simp] theorem State.clearAwaiting_run (n : Nat) (s : State) : (s.clearAwaiting n).run = s.run := by
  unfold State.clearAwaiting; (try dsimp only); (repeat' split) <;> simp
@[simp] theorem State.clearAwaiting_resetInput (n : Nat) (s : State) : (s.clearAwaiting n).resetInput = s.resetInput := by
  unfold State.clearAwaiting; (try dsimp only); (repeat' split) <;> simp
@[simp] theorem State.clearAwaiting_marker (n : Nat) (s : State) : (s.clearAwaiting n).marker = s.marker := by
  unfold State.clearAwaiting; (try dsimp only); (repeat' split) <;> simp
@[simp] theorem State.clearAwaiting_lanes (n : Nat) (s : State) : (s.clearAwaiting n).lanes = s.lanes := by
  unfold State.clearAwaiting; (try dsimp only); (repeat' split) <;> simp
@[simp] theorem State.clearAwaiting_policy (n : Nat) (s : State) : (s.clearAwaiting n).policy = s.policy := by
  unfold State.clearAwaiting; (try dsimp only); (repeat' split) <;> simp
@[simp] theorem State.clearAwaiting_engine (n : Nat) (s : State) : (s.clearAwaiting n).engine = s.engine := by
  unfold State.clearAwaiting; (try dsimp only); (repeat' split) <;> simp
@[simp] theorem State.clearAwaiting_spill (n : Nat) (s : State) : (s.clearAwaiting n).spill = s.spill := by
  unfold State.clearAwaiting; (try dsimp only); (repeat' split) <;> simp
@[simp] theorem State.clearAwaiting_meter (n : Nat) (s : State) : (s.clearAwaiting n).meter = s.meter := by
  unfold State.clearAwaiting; (try dsimp only); (repeat' split) <;> simp
@[simp] theorem State.clearAwaiting_link (n : Nat) (s : State) : (s.clearAwaiting n).link = s.link := by
  unfold State.clearAwaiting; (try dsimp only); (repeat' split) <;> simp
@[simp] theorem State.clearAwaiting_intake (n : Nat) (s : State) : (s.clearAwaiting n).intake = s.intake := by
  unfold State.clearAwaiting; (try dsimp only); (repeat' split) <;> simp
@[simp] theorem State.clearAwaiting_batch (n : Nat) (s : State) : (s.clearAwaiting n).batch = s.batch := by
  unfold State.clearAwaiting; (try dsimp only); (repeat' split) <;> simp
@[simp] theorem State.clearAwaiting_keys (n : Nat) (s : State) : (s.clearAwaiting n).keys = s.keys := by
  unfold State.clearAwaiting; (try dsimp only); (repeat' split) <;> simp
@[simp] theorem State.clearAwaiting_keyLine (n : Nat) (s : State) : (s.clearAwaiting n).keyLine = s.keyLine := by
  unfold State.clearAwaiting; (try dsimp only); (repeat' split) <;> simp
@[simp] theorem State.clearAwaiting_lp (n : Nat) (s : State) : (s.clearAwaiting n).lp = s.lp := by
  unfold State.clearAwaiting; (try dsimp only); (repeat' split) <;> simp
@[simp] theorem State.clearAwaiting_up (n : Nat) (s : State) : (s.clearAwaiting n).up = s.up := by
  unfold State.clearAwaiting; (try dsimp only); (repeat' split) <;> simp
@[simp] theorem State.clearAwaiting_cfg (n : Nat) (s : State) : (s.clearAwaiting n).cfg = s.cfg := by
  unfold State.clearAwaiting; (try dsimp only); (repeat' split) <;> simp
@[simp] theorem State.clearAwaiting_choices (n : Nat) (s : State) : (s.clearAwaiting n).choices = s.choices := by
  unfold State.clearAwaiting; (try dsimp only); (repeat' split) <;> simp
@[simp] theorem State.clearAwaiting_held (n : Nat) (s : State) (q : PortId) : ((s.clearAwaiting n).port q).held = (s.port q).held := by
  unfold State.clearAwaiting; (try dsimp only); (repeat' split) <;> simp
@[simp] theorem State.clearAwaiting_posted (n : Nat) (s : State) (q : PortId) : ((s.clearAwaiting n).port q).posted = (s.port q).posted := by
  unfold State.clearAwaiting; (try dsimp only); (repeat' split) <;> simp

/-! ### laneResult -/

@[simp] theorem State.laneResult_pending (l : Fin 16) (r : LaneResult) (s : State) : (s.laneResult l r).pending = s.pending := by
  unfold State.laneResult; (try dsimp only); (repeat' split) <;> simp
@[simp] theorem State.laneResult_run (l : Fin 16) (r : LaneResult) (s : State) : (s.laneResult l r).run = s.run := by
  unfold State.laneResult; (try dsimp only); (repeat' split) <;> simp
@[simp] theorem State.laneResult_resetInput (l : Fin 16) (r : LaneResult) (s : State) : (s.laneResult l r).resetInput = s.resetInput := by
  unfold State.laneResult; (try dsimp only); (repeat' split) <;> simp
@[simp] theorem State.laneResult_marker (l : Fin 16) (r : LaneResult) (s : State) : (s.laneResult l r).marker = s.marker := by
  unfold State.laneResult; (try dsimp only); (repeat' split) <;> simp
@[simp] theorem State.laneResult_policy (l : Fin 16) (r : LaneResult) (s : State) : (s.laneResult l r).policy = s.policy := by
  unfold State.laneResult; (try dsimp only); (repeat' split) <;> simp
@[simp] theorem State.laneResult_engine (l : Fin 16) (r : LaneResult) (s : State) : (s.laneResult l r).engine = s.engine := by
  unfold State.laneResult; (try dsimp only); (repeat' split) <;> simp
@[simp] theorem State.laneResult_store (l : Fin 16) (r : LaneResult) (s : State) : (s.laneResult l r).store = s.store := by
  unfold State.laneResult; (try dsimp only); (repeat' split) <;> simp
@[simp] theorem State.laneResult_spill (l : Fin 16) (r : LaneResult) (s : State) : (s.laneResult l r).spill = s.spill := by
  unfold State.laneResult; (try dsimp only); (repeat' split) <;> simp
@[simp] theorem State.laneResult_meter (l : Fin 16) (r : LaneResult) (s : State) : (s.laneResult l r).meter = s.meter := by
  unfold State.laneResult; (try dsimp only); (repeat' split) <;> simp
@[simp] theorem State.laneResult_link (l : Fin 16) (r : LaneResult) (s : State) : (s.laneResult l r).link = s.link := by
  unfold State.laneResult; (try dsimp only); (repeat' split) <;> simp
@[simp] theorem State.laneResult_intake (l : Fin 16) (r : LaneResult) (s : State) : (s.laneResult l r).intake = s.intake := by
  unfold State.laneResult; (try dsimp only); (repeat' split) <;> simp
@[simp] theorem State.laneResult_batch (l : Fin 16) (r : LaneResult) (s : State) : (s.laneResult l r).batch = s.batch := by
  unfold State.laneResult; (try dsimp only); (repeat' split) <;> simp
@[simp] theorem State.laneResult_keys (l : Fin 16) (r : LaneResult) (s : State) : (s.laneResult l r).keys = s.keys := by
  unfold State.laneResult; (try dsimp only); (repeat' split) <;> simp
@[simp] theorem State.laneResult_keyLine (l : Fin 16) (r : LaneResult) (s : State) : (s.laneResult l r).keyLine = s.keyLine := by
  unfold State.laneResult; (try dsimp only); (repeat' split) <;> simp
@[simp] theorem State.laneResult_lp (l : Fin 16) (r : LaneResult) (s : State) : (s.laneResult l r).lp = s.lp := by
  unfold State.laneResult; (try dsimp only); (repeat' split) <;> simp
@[simp] theorem State.laneResult_up (l : Fin 16) (r : LaneResult) (s : State) : (s.laneResult l r).up = s.up := by
  unfold State.laneResult; (try dsimp only); (repeat' split) <;> simp
@[simp] theorem State.laneResult_cfg (l : Fin 16) (r : LaneResult) (s : State) : (s.laneResult l r).cfg = s.cfg := by
  unfold State.laneResult; (try dsimp only); (repeat' split) <;> simp
@[simp] theorem State.laneResult_choices (l : Fin 16) (r : LaneResult) (s : State) : (s.laneResult l r).choices = s.choices := by
  unfold State.laneResult; (try dsimp only); (repeat' split) <;> simp
@[simp] theorem State.laneResult_held (l : Fin 16) (r : LaneResult) (s : State) (q : PortId) : ((s.laneResult l r).port q).held = (s.port q).held := by
  unfold State.laneResult; (try dsimp only); (repeat' split) <;> simp
@[simp] theorem State.laneResult_posted (l : Fin 16) (r : LaneResult) (s : State) (q : PortId) : ((s.laneResult l r).port q).posted = (s.port q).posted := by
  unfold State.laneResult; (try dsimp only); (repeat' split) <;> simp

/-! ### laneOutcome -/

@[simp] theorem State.laneOutcome_pending (l : Fin 16) (f : Lane → Lane) (s : State) : (s.laneOutcome l f).pending = s.pending := by
  unfold State.laneOutcome; (try dsimp only); (repeat' split) <;> simp
@[simp] theorem State.laneOutcome_run (l : Fin 16) (f : Lane → Lane) (s : State) : (s.laneOutcome l f).run = s.run := by
  unfold State.laneOutcome; (try dsimp only); (repeat' split) <;> simp
@[simp] theorem State.laneOutcome_resetInput (l : Fin 16) (f : Lane → Lane) (s : State) : (s.laneOutcome l f).resetInput = s.resetInput := by
  unfold State.laneOutcome; (try dsimp only); (repeat' split) <;> simp
@[simp] theorem State.laneOutcome_marker (l : Fin 16) (f : Lane → Lane) (s : State) : (s.laneOutcome l f).marker = s.marker := by
  unfold State.laneOutcome; (try dsimp only); (repeat' split) <;> simp
@[simp] theorem State.laneOutcome_policy (l : Fin 16) (f : Lane → Lane) (s : State) : (s.laneOutcome l f).policy = s.policy := by
  unfold State.laneOutcome; (try dsimp only); (repeat' split) <;> simp
@[simp] theorem State.laneOutcome_engine (l : Fin 16) (f : Lane → Lane) (s : State) : (s.laneOutcome l f).engine = s.engine := by
  unfold State.laneOutcome; (try dsimp only); (repeat' split) <;> simp
@[simp] theorem State.laneOutcome_store (l : Fin 16) (f : Lane → Lane) (s : State) : (s.laneOutcome l f).store = s.store := by
  unfold State.laneOutcome; (try dsimp only); (repeat' split) <;> simp
@[simp] theorem State.laneOutcome_spill (l : Fin 16) (f : Lane → Lane) (s : State) : (s.laneOutcome l f).spill = s.spill := by
  unfold State.laneOutcome; (try dsimp only); (repeat' split) <;> simp
@[simp] theorem State.laneOutcome_meter (l : Fin 16) (f : Lane → Lane) (s : State) : (s.laneOutcome l f).meter = s.meter := by
  unfold State.laneOutcome; (try dsimp only); (repeat' split) <;> simp
@[simp] theorem State.laneOutcome_link (l : Fin 16) (f : Lane → Lane) (s : State) : (s.laneOutcome l f).link = s.link := by
  unfold State.laneOutcome; (try dsimp only); (repeat' split) <;> simp
@[simp] theorem State.laneOutcome_intake (l : Fin 16) (f : Lane → Lane) (s : State) : (s.laneOutcome l f).intake = s.intake := by
  unfold State.laneOutcome; (try dsimp only); (repeat' split) <;> simp
@[simp] theorem State.laneOutcome_batch (l : Fin 16) (f : Lane → Lane) (s : State) : (s.laneOutcome l f).batch = s.batch := by
  unfold State.laneOutcome; (try dsimp only); (repeat' split) <;> simp
@[simp] theorem State.laneOutcome_keys (l : Fin 16) (f : Lane → Lane) (s : State) : (s.laneOutcome l f).keys = s.keys := by
  unfold State.laneOutcome; (try dsimp only); (repeat' split) <;> simp
@[simp] theorem State.laneOutcome_keyLine (l : Fin 16) (f : Lane → Lane) (s : State) : (s.laneOutcome l f).keyLine = s.keyLine := by
  unfold State.laneOutcome; (try dsimp only); (repeat' split) <;> simp
@[simp] theorem State.laneOutcome_up (l : Fin 16) (f : Lane → Lane) (s : State) : (s.laneOutcome l f).up = s.up := by
  unfold State.laneOutcome; (try dsimp only); (repeat' split) <;> simp
@[simp] theorem State.laneOutcome_cfg (l : Fin 16) (f : Lane → Lane) (s : State) : (s.laneOutcome l f).cfg = s.cfg := by
  unfold State.laneOutcome; (try dsimp only); (repeat' split) <;> simp
@[simp] theorem State.laneOutcome_choices (l : Fin 16) (f : Lane → Lane) (s : State) : (s.laneOutcome l f).choices = s.choices := by
  unfold State.laneOutcome; (try dsimp only); (repeat' split) <;> simp
@[simp] theorem State.laneOutcome_held (l : Fin 16) (f : Lane → Lane) (s : State) (q : PortId) : ((s.laneOutcome l f).port q).held = (s.port q).held := by
  unfold State.laneOutcome; (try dsimp only); (repeat' split) <;> simp
@[simp] theorem State.laneOutcome_posted (l : Fin 16) (f : Lane → Lane) (s : State) (q : PortId) : ((s.laneOutcome l f).port q).posted = (s.port q).posted := by
  unfold State.laneOutcome; (try dsimp only); (repeat' split) <;> simp

/-! ### clearOrphan -/

@[simp] theorem State.clearOrphan_pending (l : Fin 16) (s : State) : (s.clearOrphan l).pending = s.pending := by
  unfold State.clearOrphan; (try dsimp only); (repeat' split) <;> simp
@[simp] theorem State.clearOrphan_run (l : Fin 16) (s : State) : (s.clearOrphan l).run = s.run := by
  unfold State.clearOrphan; (try dsimp only); (repeat' split) <;> simp
@[simp] theorem State.clearOrphan_resetInput (l : Fin 16) (s : State) : (s.clearOrphan l).resetInput = s.resetInput := by
  unfold State.clearOrphan; (try dsimp only); (repeat' split) <;> simp
@[simp] theorem State.clearOrphan_marker (l : Fin 16) (s : State) : (s.clearOrphan l).marker = s.marker := by
  unfold State.clearOrphan; (try dsimp only); (repeat' split) <;> simp
@[simp] theorem State.clearOrphan_policy (l : Fin 16) (s : State) : (s.clearOrphan l).policy = s.policy := by
  unfold State.clearOrphan; (try dsimp only); (repeat' split) <;> simp
@[simp] theorem State.clearOrphan_engine (l : Fin 16) (s : State) : (s.clearOrphan l).engine = s.engine := by
  unfold State.clearOrphan; (try dsimp only); (repeat' split) <;> simp
@[simp] theorem State.clearOrphan_store (l : Fin 16) (s : State) : (s.clearOrphan l).store = s.store := by
  unfold State.clearOrphan; (try dsimp only); (repeat' split) <;> simp
@[simp] theorem State.clearOrphan_spill (l : Fin 16) (s : State) : (s.clearOrphan l).spill = s.spill := by
  unfold State.clearOrphan; (try dsimp only); (repeat' split) <;> simp
@[simp] theorem State.clearOrphan_meter (l : Fin 16) (s : State) : (s.clearOrphan l).meter = s.meter := by
  unfold State.clearOrphan; (try dsimp only); (repeat' split) <;> simp
@[simp] theorem State.clearOrphan_link (l : Fin 16) (s : State) : (s.clearOrphan l).link = s.link := by
  unfold State.clearOrphan; (try dsimp only); (repeat' split) <;> simp
@[simp] theorem State.clearOrphan_intake (l : Fin 16) (s : State) : (s.clearOrphan l).intake = s.intake := by
  unfold State.clearOrphan; (try dsimp only); (repeat' split) <;> simp
@[simp] theorem State.clearOrphan_batch (l : Fin 16) (s : State) : (s.clearOrphan l).batch = s.batch := by
  unfold State.clearOrphan; (try dsimp only); (repeat' split) <;> simp
@[simp] theorem State.clearOrphan_keys (l : Fin 16) (s : State) : (s.clearOrphan l).keys = s.keys := by
  unfold State.clearOrphan; (try dsimp only); (repeat' split) <;> simp
@[simp] theorem State.clearOrphan_keyLine (l : Fin 16) (s : State) : (s.clearOrphan l).keyLine = s.keyLine := by
  unfold State.clearOrphan; (try dsimp only); (repeat' split) <;> simp
@[simp] theorem State.clearOrphan_lp (l : Fin 16) (s : State) : (s.clearOrphan l).lp = s.lp := by
  unfold State.clearOrphan; (try dsimp only); (repeat' split) <;> simp
@[simp] theorem State.clearOrphan_up (l : Fin 16) (s : State) : (s.clearOrphan l).up = s.up := by
  unfold State.clearOrphan; (try dsimp only); (repeat' split) <;> simp
@[simp] theorem State.clearOrphan_cfg (l : Fin 16) (s : State) : (s.clearOrphan l).cfg = s.cfg := by
  unfold State.clearOrphan; (try dsimp only); (repeat' split) <;> simp
@[simp] theorem State.clearOrphan_choices (l : Fin 16) (s : State) : (s.clearOrphan l).choices = s.choices := by
  unfold State.clearOrphan; (try dsimp only); (repeat' split) <;> simp
@[simp] theorem State.clearOrphan_held (l : Fin 16) (s : State) (q : PortId) : ((s.clearOrphan l).port q).held = (s.port q).held := by
  unfold State.clearOrphan; (try dsimp only); (repeat' split) <;> simp
@[simp] theorem State.clearOrphan_posted (l : Fin 16) (s : State) (q : PortId) : ((s.clearOrphan l).port q).posted = (s.port q).posted := by
  unfold State.clearOrphan; (try dsimp only); (repeat' split) <;> simp

/-! ### moveLink -/

@[simp] theorem State.moveLink_pending (l : Link) (s : State) : (s.moveLink l).pending = s.pending := by
  unfold State.moveLink; (try dsimp only); (repeat' split) <;> simp
@[simp] theorem State.moveLink_run (l : Link) (s : State) : (s.moveLink l).run = s.run := by
  unfold State.moveLink; (try dsimp only); (repeat' split) <;> simp
@[simp] theorem State.moveLink_resetInput (l : Link) (s : State) : (s.moveLink l).resetInput = s.resetInput := by
  unfold State.moveLink; (try dsimp only); (repeat' split) <;> simp
@[simp] theorem State.moveLink_marker (l : Link) (s : State) : (s.moveLink l).marker = s.marker := by
  unfold State.moveLink; (try dsimp only); (repeat' split) <;> simp
@[simp] theorem State.moveLink_lanes (l : Link) (s : State) : (s.moveLink l).lanes = s.lanes := by
  unfold State.moveLink; (try dsimp only); (repeat' split) <;> simp
@[simp] theorem State.moveLink_policy (l : Link) (s : State) : (s.moveLink l).policy = s.policy := by
  unfold State.moveLink; (try dsimp only); (repeat' split) <;> simp
@[simp] theorem State.moveLink_engine (l : Link) (s : State) : (s.moveLink l).engine = s.engine := by
  unfold State.moveLink; (try dsimp only); (repeat' split) <;> simp
@[simp] theorem State.moveLink_store (l : Link) (s : State) : (s.moveLink l).store = s.store := by
  unfold State.moveLink; (try dsimp only); (repeat' split) <;> simp
@[simp] theorem State.moveLink_spill (l : Link) (s : State) : (s.moveLink l).spill = s.spill := by
  unfold State.moveLink; (try dsimp only); (repeat' split) <;> simp
@[simp] theorem State.moveLink_meter (l : Link) (s : State) : (s.moveLink l).meter = s.meter := by
  unfold State.moveLink; (try dsimp only); (repeat' split) <;> simp
@[simp] theorem State.moveLink_intake (l : Link) (s : State) : (s.moveLink l).intake = s.intake := by
  unfold State.moveLink; (try dsimp only); (repeat' split) <;> simp
@[simp] theorem State.moveLink_batch (l : Link) (s : State) : (s.moveLink l).batch = s.batch := by
  unfold State.moveLink; (try dsimp only); (repeat' split) <;> simp
@[simp] theorem State.moveLink_keys (l : Link) (s : State) : (s.moveLink l).keys = s.keys := by
  unfold State.moveLink; (try dsimp only); (repeat' split) <;> simp
@[simp] theorem State.moveLink_keyLine (l : Link) (s : State) : (s.moveLink l).keyLine = s.keyLine := by
  unfold State.moveLink; (try dsimp only); (repeat' split) <;> simp
@[simp] theorem State.moveLink_lp (l : Link) (s : State) : (s.moveLink l).lp = s.lp := by
  unfold State.moveLink; (try dsimp only); (repeat' split) <;> simp
@[simp] theorem State.moveLink_cfg (l : Link) (s : State) : (s.moveLink l).cfg = s.cfg := by
  unfold State.moveLink; (try dsimp only); (repeat' split) <;> simp
@[simp] theorem State.moveLink_choices (l : Link) (s : State) : (s.moveLink l).choices = s.choices := by
  unfold State.moveLink; (try dsimp only); (repeat' split) <;> simp
@[simp] theorem State.moveLink_held (l : Link) (s : State) (q : PortId) : ((s.moveLink l).port q).held = (s.port q).held := by
  unfold State.moveLink; (try dsimp only); (repeat' split) <;> simp
@[simp] theorem State.moveLink_posted (l : Link) (s : State) (q : PortId) : ((s.moveLink l).port q).posted = (s.port q).posted := by
  unfold State.moveLink; (try dsimp only); (repeat' split) <;> simp

/-! ### linkMiss -/

@[simp] theorem State.linkMiss_pending (s : State) : (s.linkMiss).pending = s.pending := by
  unfold State.linkMiss; (try dsimp only); (repeat' split) <;> simp
@[simp] theorem State.linkMiss_run (s : State) : (s.linkMiss).run = s.run := by
  unfold State.linkMiss; (try dsimp only); (repeat' split) <;> simp
@[simp] theorem State.linkMiss_resetInput (s : State) : (s.linkMiss).resetInput = s.resetInput := by
  unfold State.linkMiss; (try dsimp only); (repeat' split) <;> simp
@[simp] theorem State.linkMiss_marker (s : State) : (s.linkMiss).marker = s.marker := by
  unfold State.linkMiss; (try dsimp only); (repeat' split) <;> simp
@[simp] theorem State.linkMiss_lanes (s : State) : (s.linkMiss).lanes = s.lanes := by
  unfold State.linkMiss; (try dsimp only); (repeat' split) <;> simp
@[simp] theorem State.linkMiss_policy (s : State) : (s.linkMiss).policy = s.policy := by
  unfold State.linkMiss; (try dsimp only); (repeat' split) <;> simp
@[simp] theorem State.linkMiss_engine (s : State) : (s.linkMiss).engine = s.engine := by
  unfold State.linkMiss; (try dsimp only); (repeat' split) <;> simp
@[simp] theorem State.linkMiss_store (s : State) : (s.linkMiss).store = s.store := by
  unfold State.linkMiss; (try dsimp only); (repeat' split) <;> simp
@[simp] theorem State.linkMiss_spill (s : State) : (s.linkMiss).spill = s.spill := by
  unfold State.linkMiss; (try dsimp only); (repeat' split) <;> simp
@[simp] theorem State.linkMiss_meter (s : State) : (s.linkMiss).meter = s.meter := by
  unfold State.linkMiss; (try dsimp only); (repeat' split) <;> simp
@[simp] theorem State.linkMiss_intake (s : State) : (s.linkMiss).intake = s.intake := by
  unfold State.linkMiss; (try dsimp only); (repeat' split) <;> simp
@[simp] theorem State.linkMiss_batch (s : State) : (s.linkMiss).batch = s.batch := by
  unfold State.linkMiss; (try dsimp only); (repeat' split) <;> simp
@[simp] theorem State.linkMiss_keys (s : State) : (s.linkMiss).keys = s.keys := by
  unfold State.linkMiss; (try dsimp only); (repeat' split) <;> simp
@[simp] theorem State.linkMiss_keyLine (s : State) : (s.linkMiss).keyLine = s.keyLine := by
  unfold State.linkMiss; (try dsimp only); (repeat' split) <;> simp
@[simp] theorem State.linkMiss_lp (s : State) : (s.linkMiss).lp = s.lp := by
  unfold State.linkMiss; (try dsimp only); (repeat' split) <;> simp
@[simp] theorem State.linkMiss_cfg (s : State) : (s.linkMiss).cfg = s.cfg := by
  unfold State.linkMiss; (try dsimp only); (repeat' split) <;> simp
@[simp] theorem State.linkMiss_choices (s : State) : (s.linkMiss).choices = s.choices := by
  unfold State.linkMiss; (try dsimp only); (repeat' split) <;> simp
@[simp] theorem State.linkMiss_held (s : State) (q : PortId) : ((s.linkMiss).port q).held = (s.port q).held := by
  unfold State.linkMiss; (try dsimp only); (repeat' split) <;> simp
@[simp] theorem State.linkMiss_posted (s : State) (q : PortId) : ((s.linkMiss).port q).posted = (s.port q).posted := by
  unfold State.linkMiss; (try dsimp only); (repeat' split) <;> simp

/-! ### linkSign -/

@[simp] theorem State.linkSign_pending (s : State) : (s.linkSign).pending = s.pending := by
  unfold State.linkSign; (try dsimp only); (repeat' split) <;> simp
@[simp] theorem State.linkSign_run (s : State) : (s.linkSign).run = s.run := by
  unfold State.linkSign; (try dsimp only); (repeat' split) <;> simp
@[simp] theorem State.linkSign_resetInput (s : State) : (s.linkSign).resetInput = s.resetInput := by
  unfold State.linkSign; (try dsimp only); (repeat' split) <;> simp
@[simp] theorem State.linkSign_marker (s : State) : (s.linkSign).marker = s.marker := by
  unfold State.linkSign; (try dsimp only); (repeat' split) <;> simp
@[simp] theorem State.linkSign_lanes (s : State) : (s.linkSign).lanes = s.lanes := by
  unfold State.linkSign; (try dsimp only); (repeat' split) <;> simp
@[simp] theorem State.linkSign_policy (s : State) : (s.linkSign).policy = s.policy := by
  unfold State.linkSign; (try dsimp only); (repeat' split) <;> simp
@[simp] theorem State.linkSign_engine (s : State) : (s.linkSign).engine = s.engine := by
  unfold State.linkSign; (try dsimp only); (repeat' split) <;> simp
@[simp] theorem State.linkSign_store (s : State) : (s.linkSign).store = s.store := by
  unfold State.linkSign; (try dsimp only); (repeat' split) <;> simp
@[simp] theorem State.linkSign_spill (s : State) : (s.linkSign).spill = s.spill := by
  unfold State.linkSign; (try dsimp only); (repeat' split) <;> simp
@[simp] theorem State.linkSign_meter (s : State) : (s.linkSign).meter = s.meter := by
  unfold State.linkSign; (try dsimp only); (repeat' split) <;> simp
@[simp] theorem State.linkSign_intake (s : State) : (s.linkSign).intake = s.intake := by
  unfold State.linkSign; (try dsimp only); (repeat' split) <;> simp
@[simp] theorem State.linkSign_batch (s : State) : (s.linkSign).batch = s.batch := by
  unfold State.linkSign; (try dsimp only); (repeat' split) <;> simp
@[simp] theorem State.linkSign_keys (s : State) : (s.linkSign).keys = s.keys := by
  unfold State.linkSign; (try dsimp only); (repeat' split) <;> simp
@[simp] theorem State.linkSign_keyLine (s : State) : (s.linkSign).keyLine = s.keyLine := by
  unfold State.linkSign; (try dsimp only); (repeat' split) <;> simp
@[simp] theorem State.linkSign_lp (s : State) : (s.linkSign).lp = s.lp := by
  unfold State.linkSign; (try dsimp only); (repeat' split) <;> simp
@[simp] theorem State.linkSign_cfg (s : State) : (s.linkSign).cfg = s.cfg := by
  unfold State.linkSign; (try dsimp only); (repeat' split) <;> simp
@[simp] theorem State.linkSign_choices (s : State) : (s.linkSign).choices = s.choices := by
  unfold State.linkSign; (try dsimp only); (repeat' split) <;> simp
@[simp] theorem State.linkSign_held (s : State) (q : PortId) : ((s.linkSign).port q).held = (s.port q).held := by
  unfold State.linkSign; (try dsimp only); (repeat' split) <;> simp
@[simp] theorem State.linkSign_posted (s : State) (q : PortId) : ((s.linkSign).port q).posted = (s.port q).posted := by
  unfold State.linkSign; (try dsimp only); (repeat' split) <;> simp

/-! ### release -/

@[simp] theorem State.release_pending (c : Nat) (s : State) : (s.release c).pending = s.pending := by
  unfold State.release; (try dsimp only); (repeat' split) <;> simp
@[simp] theorem State.release_run (c : Nat) (s : State) : (s.release c).run = s.run := by
  unfold State.release; (try dsimp only); (repeat' split) <;> simp
@[simp] theorem State.release_resetInput (c : Nat) (s : State) : (s.release c).resetInput = s.resetInput := by
  unfold State.release; (try dsimp only); (repeat' split) <;> simp
@[simp] theorem State.release_marker (c : Nat) (s : State) : (s.release c).marker = s.marker := by
  unfold State.release; (try dsimp only); (repeat' split) <;> simp
@[simp] theorem State.release_lanes (c : Nat) (s : State) : (s.release c).lanes = s.lanes := by
  unfold State.release; (try dsimp only); (repeat' split) <;> simp
@[simp] theorem State.release_policy (c : Nat) (s : State) : (s.release c).policy = s.policy := by
  unfold State.release; (try dsimp only); (repeat' split) <;> simp
@[simp] theorem State.release_engine (c : Nat) (s : State) : (s.release c).engine = s.engine := by
  unfold State.release; (try dsimp only); (repeat' split) <;> simp
@[simp] theorem State.release_store (c : Nat) (s : State) : (s.release c).store = s.store := by
  unfold State.release; (try dsimp only); (repeat' split) <;> simp
@[simp] theorem State.release_spill (c : Nat) (s : State) : (s.release c).spill = s.spill := by
  unfold State.release; (try dsimp only); (repeat' split) <;> simp
@[simp] theorem State.release_link (c : Nat) (s : State) : (s.release c).link = s.link := by
  unfold State.release; (try dsimp only); (repeat' split) <;> simp
@[simp] theorem State.release_intake (c : Nat) (s : State) : (s.release c).intake = s.intake := by
  unfold State.release; (try dsimp only); (repeat' split) <;> simp
@[simp] theorem State.release_batch (c : Nat) (s : State) : (s.release c).batch = s.batch := by
  unfold State.release; (try dsimp only); (repeat' split) <;> simp
@[simp] theorem State.release_keys (c : Nat) (s : State) : (s.release c).keys = s.keys := by
  unfold State.release; (try dsimp only); (repeat' split) <;> simp
@[simp] theorem State.release_keyLine (c : Nat) (s : State) : (s.release c).keyLine = s.keyLine := by
  unfold State.release; (try dsimp only); (repeat' split) <;> simp
@[simp] theorem State.release_lp (c : Nat) (s : State) : (s.release c).lp = s.lp := by
  unfold State.release; (try dsimp only); (repeat' split) <;> simp
@[simp] theorem State.release_up (c : Nat) (s : State) : (s.release c).up = s.up := by
  unfold State.release; (try dsimp only); (repeat' split) <;> simp
@[simp] theorem State.release_cfg (c : Nat) (s : State) : (s.release c).cfg = s.cfg := by
  unfold State.release; (try dsimp only); (repeat' split) <;> simp
@[simp] theorem State.release_choices (c : Nat) (s : State) : (s.release c).choices = s.choices := by
  unfold State.release; (try dsimp only); (repeat' split) <;> simp
@[simp] theorem State.release_held (c : Nat) (s : State) (q : PortId) : ((s.release c).port q).held = (s.port q).held := by
  unfold State.release; (try dsimp only); (repeat' split) <;> simp
@[simp] theorem State.release_posted (c : Nat) (s : State) (q : PortId) : ((s.release c).port q).posted = (s.port q).posted := by
  unfold State.release; (try dsimp only); (repeat' split) <;> simp

/-! ### campaignLook -/

@[simp] theorem State.campaignLook_pending (s : State) : (s.campaignLook).pending = s.pending := by
  unfold State.campaignLook; (try dsimp only); (repeat' split) <;> simp
@[simp] theorem State.campaignLook_run (s : State) : (s.campaignLook).run = s.run := by
  unfold State.campaignLook; (try dsimp only); (repeat' split) <;> simp
@[simp] theorem State.campaignLook_resetInput (s : State) : (s.campaignLook).resetInput = s.resetInput := by
  unfold State.campaignLook; (try dsimp only); (repeat' split) <;> simp
@[simp] theorem State.campaignLook_marker (s : State) : (s.campaignLook).marker = s.marker := by
  unfold State.campaignLook; (try dsimp only); (repeat' split) <;> simp
@[simp] theorem State.campaignLook_lanes (s : State) : (s.campaignLook).lanes = s.lanes := by
  unfold State.campaignLook; (try dsimp only); (repeat' split) <;> simp
@[simp] theorem State.campaignLook_policy (s : State) : (s.campaignLook).policy = s.policy := by
  unfold State.campaignLook; (try dsimp only); (repeat' split) <;> simp
@[simp] theorem State.campaignLook_engine (s : State) : (s.campaignLook).engine = s.engine := by
  unfold State.campaignLook; (try dsimp only); (repeat' split) <;> simp
@[simp] theorem State.campaignLook_store (s : State) : (s.campaignLook).store = s.store := by
  unfold State.campaignLook; (try dsimp only); (repeat' split) <;> simp
@[simp] theorem State.campaignLook_spill (s : State) : (s.campaignLook).spill = s.spill := by
  unfold State.campaignLook; (try dsimp only); (repeat' split) <;> simp
@[simp] theorem State.campaignLook_meter (s : State) : (s.campaignLook).meter = s.meter := by
  unfold State.campaignLook; (try dsimp only); (repeat' split) <;> simp
@[simp] theorem State.campaignLook_link (s : State) : (s.campaignLook).link = s.link := by
  unfold State.campaignLook; (try dsimp only); (repeat' split) <;> simp
@[simp] theorem State.campaignLook_intake (s : State) : (s.campaignLook).intake = s.intake := by
  unfold State.campaignLook; (try dsimp only); (repeat' split) <;> simp
@[simp] theorem State.campaignLook_batch (s : State) : (s.campaignLook).batch = s.batch := by
  unfold State.campaignLook; (try dsimp only); (repeat' split) <;> simp
@[simp] theorem State.campaignLook_keyLine (s : State) : (s.campaignLook).keyLine = s.keyLine := by
  unfold State.campaignLook; (try dsimp only); (repeat' split) <;> simp
@[simp] theorem State.campaignLook_lp (s : State) : (s.campaignLook).lp = s.lp := by
  unfold State.campaignLook; (try dsimp only); (repeat' split) <;> simp
@[simp] theorem State.campaignLook_up (s : State) : (s.campaignLook).up = s.up := by
  unfold State.campaignLook; (try dsimp only); (repeat' split) <;> simp
@[simp] theorem State.campaignLook_cfg (s : State) : (s.campaignLook).cfg = s.cfg := by
  unfold State.campaignLook; (try dsimp only); (repeat' split) <;> simp
@[simp] theorem State.campaignLook_choices (s : State) : (s.campaignLook).choices = s.choices := by
  unfold State.campaignLook; (try dsimp only); (repeat' split) <;> simp
@[simp] theorem State.campaignLook_held (s : State) (q : PortId) : ((s.campaignLook).port q).held = (s.port q).held := by
  unfold State.campaignLook; (try dsimp only); (repeat' split) <;> simp
@[simp] theorem State.campaignLook_posted (s : State) (q : PortId) : ((s.campaignLook).port q).posted = (s.port q).posted := by
  unfold State.campaignLook; (try dsimp only); (repeat' split) <;> simp

/-! ### eraseRetiring -/

@[simp] theorem State.eraseRetiring_pending (a : Bool) (s : State) : (s.eraseRetiring a).pending = s.pending := by
  unfold State.eraseRetiring; (try dsimp only); (repeat' split) <;> simp
@[simp] theorem State.eraseRetiring_run (a : Bool) (s : State) : (s.eraseRetiring a).run = s.run := by
  unfold State.eraseRetiring; (try dsimp only); (repeat' split) <;> simp
@[simp] theorem State.eraseRetiring_resetInput (a : Bool) (s : State) : (s.eraseRetiring a).resetInput = s.resetInput := by
  unfold State.eraseRetiring; (try dsimp only); (repeat' split) <;> simp
@[simp] theorem State.eraseRetiring_marker (a : Bool) (s : State) : (s.eraseRetiring a).marker = s.marker := by
  unfold State.eraseRetiring; (try dsimp only); (repeat' split) <;> simp
@[simp] theorem State.eraseRetiring_lanes (a : Bool) (s : State) : (s.eraseRetiring a).lanes = s.lanes := by
  unfold State.eraseRetiring; (try dsimp only); (repeat' split) <;> simp
@[simp] theorem State.eraseRetiring_policy (a : Bool) (s : State) : (s.eraseRetiring a).policy = s.policy := by
  unfold State.eraseRetiring; (try dsimp only); (repeat' split) <;> simp
@[simp] theorem State.eraseRetiring_engine (a : Bool) (s : State) : (s.eraseRetiring a).engine = s.engine := by
  unfold State.eraseRetiring; (try dsimp only); (repeat' split) <;> simp
@[simp] theorem State.eraseRetiring_store (a : Bool) (s : State) : (s.eraseRetiring a).store = s.store := by
  unfold State.eraseRetiring; (try dsimp only); (repeat' split) <;> simp
@[simp] theorem State.eraseRetiring_spill (a : Bool) (s : State) : (s.eraseRetiring a).spill = s.spill := by
  unfold State.eraseRetiring; (try dsimp only); (repeat' split) <;> simp
@[simp] theorem State.eraseRetiring_meter (a : Bool) (s : State) : (s.eraseRetiring a).meter = s.meter := by
  unfold State.eraseRetiring; (try dsimp only); (repeat' split) <;> simp
@[simp] theorem State.eraseRetiring_link (a : Bool) (s : State) : (s.eraseRetiring a).link = s.link := by
  unfold State.eraseRetiring; (try dsimp only); (repeat' split) <;> simp
@[simp] theorem State.eraseRetiring_intake (a : Bool) (s : State) : (s.eraseRetiring a).intake = s.intake := by
  unfold State.eraseRetiring; (try dsimp only); (repeat' split) <;> simp
@[simp] theorem State.eraseRetiring_batch (a : Bool) (s : State) : (s.eraseRetiring a).batch = s.batch := by
  unfold State.eraseRetiring; (try dsimp only); (repeat' split) <;> simp
@[simp] theorem State.eraseRetiring_keyLine (a : Bool) (s : State) : (s.eraseRetiring a).keyLine = s.keyLine := by
  unfold State.eraseRetiring; (try dsimp only); (repeat' split) <;> simp
@[simp] theorem State.eraseRetiring_lp (a : Bool) (s : State) : (s.eraseRetiring a).lp = s.lp := by
  unfold State.eraseRetiring; (try dsimp only); (repeat' split) <;> simp
@[simp] theorem State.eraseRetiring_cfg (a : Bool) (s : State) : (s.eraseRetiring a).cfg = s.cfg := by
  unfold State.eraseRetiring; (try dsimp only); (repeat' split) <;> simp
@[simp] theorem State.eraseRetiring_choices (a : Bool) (s : State) : (s.eraseRetiring a).choices = s.choices := by
  unfold State.eraseRetiring; (try dsimp only); (repeat' split) <;> simp
@[simp] theorem State.eraseRetiring_held (a : Bool) (s : State) (q : PortId) : ((s.eraseRetiring a).port q).held = (s.port q).held := by
  unfold State.eraseRetiring; (try dsimp only); (repeat' split) <;> simp
@[simp] theorem State.eraseRetiring_posted (a : Bool) (s : State) (q : PortId) : ((s.eraseRetiring a).port q).posted = (s.port q).posted := by
  unfold State.eraseRetiring; (try dsimp only); (repeat' split) <;> simp

/-! ### roll -/

@[simp] theorem State.roll_pending (a : Bool) (s : State) : (s.roll a).pending = s.pending := by
  unfold State.roll; (try dsimp only); (repeat' split) <;> simp
@[simp] theorem State.roll_run (a : Bool) (s : State) : (s.roll a).run = s.run := by
  unfold State.roll; (try dsimp only); (repeat' split) <;> simp
@[simp] theorem State.roll_resetInput (a : Bool) (s : State) : (s.roll a).resetInput = s.resetInput := by
  unfold State.roll; (try dsimp only); (repeat' split) <;> simp
@[simp] theorem State.roll_marker (a : Bool) (s : State) : (s.roll a).marker = s.marker := by
  unfold State.roll; (try dsimp only); (repeat' split) <;> simp
@[simp] theorem State.roll_lanes (a : Bool) (s : State) : (s.roll a).lanes = s.lanes := by
  unfold State.roll; (try dsimp only); (repeat' split) <;> simp
@[simp] theorem State.roll_policy (a : Bool) (s : State) : (s.roll a).policy = s.policy := by
  unfold State.roll; (try dsimp only); (repeat' split) <;> simp
@[simp] theorem State.roll_engine (a : Bool) (s : State) : (s.roll a).engine = s.engine := by
  unfold State.roll; (try dsimp only); (repeat' split) <;> simp
@[simp] theorem State.roll_store (a : Bool) (s : State) : (s.roll a).store = s.store := by
  unfold State.roll; (try dsimp only); (repeat' split) <;> simp
@[simp] theorem State.roll_spill (a : Bool) (s : State) : (s.roll a).spill = s.spill := by
  unfold State.roll; (try dsimp only); (repeat' split) <;> simp
@[simp] theorem State.roll_meter (a : Bool) (s : State) : (s.roll a).meter = s.meter := by
  unfold State.roll; (try dsimp only); (repeat' split) <;> simp
@[simp] theorem State.roll_link (a : Bool) (s : State) : (s.roll a).link = s.link := by
  unfold State.roll; (try dsimp only); (repeat' split) <;> simp
@[simp] theorem State.roll_intake (a : Bool) (s : State) : (s.roll a).intake = s.intake := by
  unfold State.roll; (try dsimp only); (repeat' split) <;> simp
@[simp] theorem State.roll_batch (a : Bool) (s : State) : (s.roll a).batch = s.batch := by
  unfold State.roll; (try dsimp only); (repeat' split) <;> simp
@[simp] theorem State.roll_keyLine (a : Bool) (s : State) : (s.roll a).keyLine = s.keyLine := by
  unfold State.roll; (try dsimp only); (repeat' split) <;> simp
@[simp] theorem State.roll_lp (a : Bool) (s : State) : (s.roll a).lp = s.lp := by
  unfold State.roll; (try dsimp only); (repeat' split) <;> simp
@[simp] theorem State.roll_cfg (a : Bool) (s : State) : (s.roll a).cfg = s.cfg := by
  unfold State.roll; (try dsimp only); (repeat' split) <;> simp
@[simp] theorem State.roll_choices (a : Bool) (s : State) : (s.roll a).choices = s.choices := by
  unfold State.roll; (try dsimp only); (repeat' split) <;> simp
@[simp] theorem State.roll_held (a : Bool) (s : State) (q : PortId) : ((s.roll a).port q).held = (s.port q).held := by
  unfold State.roll; (try dsimp only); (repeat' split) <;> simp
@[simp] theorem State.roll_posted (a : Bool) (s : State) (q : PortId) : ((s.roll a).port q).posted = (s.port q).posted := by
  unfold State.roll; (try dsimp only); (repeat' split) <;> simp

/-! ### settleRetiring -/

@[simp] theorem State.settleRetiring_pending (a : Bool) (s : State) : (s.settleRetiring a).pending = s.pending := by
  unfold State.settleRetiring; (try dsimp only); (repeat' split) <;> simp
@[simp] theorem State.settleRetiring_run (a : Bool) (s : State) : (s.settleRetiring a).run = s.run := by
  unfold State.settleRetiring; (try dsimp only); (repeat' split) <;> simp
@[simp] theorem State.settleRetiring_resetInput (a : Bool) (s : State) : (s.settleRetiring a).resetInput = s.resetInput := by
  unfold State.settleRetiring; (try dsimp only); (repeat' split) <;> simp
@[simp] theorem State.settleRetiring_marker (a : Bool) (s : State) : (s.settleRetiring a).marker = s.marker := by
  unfold State.settleRetiring; (try dsimp only); (repeat' split) <;> simp
@[simp] theorem State.settleRetiring_lanes (a : Bool) (s : State) : (s.settleRetiring a).lanes = s.lanes := by
  unfold State.settleRetiring; (try dsimp only); (repeat' split) <;> simp
@[simp] theorem State.settleRetiring_policy (a : Bool) (s : State) : (s.settleRetiring a).policy = s.policy := by
  unfold State.settleRetiring; (try dsimp only); (repeat' split) <;> simp
@[simp] theorem State.settleRetiring_engine (a : Bool) (s : State) : (s.settleRetiring a).engine = s.engine := by
  unfold State.settleRetiring; (try dsimp only); (repeat' split) <;> simp
@[simp] theorem State.settleRetiring_store (a : Bool) (s : State) : (s.settleRetiring a).store = s.store := by
  unfold State.settleRetiring; (try dsimp only); (repeat' split) <;> simp
@[simp] theorem State.settleRetiring_spill (a : Bool) (s : State) : (s.settleRetiring a).spill = s.spill := by
  unfold State.settleRetiring; (try dsimp only); (repeat' split) <;> simp
@[simp] theorem State.settleRetiring_meter (a : Bool) (s : State) : (s.settleRetiring a).meter = s.meter := by
  unfold State.settleRetiring; (try dsimp only); (repeat' split) <;> simp
@[simp] theorem State.settleRetiring_link (a : Bool) (s : State) : (s.settleRetiring a).link = s.link := by
  unfold State.settleRetiring; (try dsimp only); (repeat' split) <;> simp
@[simp] theorem State.settleRetiring_intake (a : Bool) (s : State) : (s.settleRetiring a).intake = s.intake := by
  unfold State.settleRetiring; (try dsimp only); (repeat' split) <;> simp
@[simp] theorem State.settleRetiring_batch (a : Bool) (s : State) : (s.settleRetiring a).batch = s.batch := by
  unfold State.settleRetiring; (try dsimp only); (repeat' split) <;> simp
@[simp] theorem State.settleRetiring_keyLine (a : Bool) (s : State) : (s.settleRetiring a).keyLine = s.keyLine := by
  unfold State.settleRetiring; (try dsimp only); (repeat' split) <;> simp
@[simp] theorem State.settleRetiring_lp (a : Bool) (s : State) : (s.settleRetiring a).lp = s.lp := by
  unfold State.settleRetiring; (try dsimp only); (repeat' split) <;> simp
@[simp] theorem State.settleRetiring_cfg (a : Bool) (s : State) : (s.settleRetiring a).cfg = s.cfg := by
  unfold State.settleRetiring; (try dsimp only); (repeat' split) <;> simp
@[simp] theorem State.settleRetiring_choices (a : Bool) (s : State) : (s.settleRetiring a).choices = s.choices := by
  unfold State.settleRetiring; (try dsimp only); (repeat' split) <;> simp
@[simp] theorem State.settleRetiring_held (a : Bool) (s : State) (q : PortId) : ((s.settleRetiring a).port q).held = (s.port q).held := by
  unfold State.settleRetiring; (try dsimp only); (repeat' split) <;> simp
@[simp] theorem State.settleRetiring_posted (a : Bool) (s : State) (q : PortId) : ((s.settleRetiring a).port q).posted = (s.port q).posted := by
  unfold State.settleRetiring; (try dsimp only); (repeat' split) <;> simp

/-! ### onSpent -/

@[simp] theorem State.onSpent_pending (s : State) : (s.onSpent).pending = s.pending := by
  unfold State.onSpent; (try dsimp only); (repeat' split) <;> simp
@[simp] theorem State.onSpent_run (s : State) : (s.onSpent).run = s.run := by
  unfold State.onSpent; (try dsimp only); (repeat' split) <;> simp
@[simp] theorem State.onSpent_resetInput (s : State) : (s.onSpent).resetInput = s.resetInput := by
  unfold State.onSpent; (try dsimp only); (repeat' split) <;> simp
@[simp] theorem State.onSpent_marker (s : State) : (s.onSpent).marker = s.marker := by
  unfold State.onSpent; (try dsimp only); (repeat' split) <;> simp
@[simp] theorem State.onSpent_lanes (s : State) : (s.onSpent).lanes = s.lanes := by
  unfold State.onSpent; (try dsimp only); (repeat' split) <;> simp
@[simp] theorem State.onSpent_policy (s : State) : (s.onSpent).policy = s.policy := by
  unfold State.onSpent; (try dsimp only); (repeat' split) <;> simp
@[simp] theorem State.onSpent_engine (s : State) : (s.onSpent).engine = s.engine := by
  unfold State.onSpent; (try dsimp only); (repeat' split) <;> simp
@[simp] theorem State.onSpent_store (s : State) : (s.onSpent).store = s.store := by
  unfold State.onSpent; (try dsimp only); (repeat' split) <;> simp
@[simp] theorem State.onSpent_spill (s : State) : (s.onSpent).spill = s.spill := by
  unfold State.onSpent; (try dsimp only); (repeat' split) <;> simp
@[simp] theorem State.onSpent_meter (s : State) : (s.onSpent).meter = s.meter := by
  unfold State.onSpent; (try dsimp only); (repeat' split) <;> simp
@[simp] theorem State.onSpent_link (s : State) : (s.onSpent).link = s.link := by
  unfold State.onSpent; (try dsimp only); (repeat' split) <;> simp
@[simp] theorem State.onSpent_intake (s : State) : (s.onSpent).intake = s.intake := by
  unfold State.onSpent; (try dsimp only); (repeat' split) <;> simp
@[simp] theorem State.onSpent_batch (s : State) : (s.onSpent).batch = s.batch := by
  unfold State.onSpent; (try dsimp only); (repeat' split) <;> simp
@[simp] theorem State.onSpent_keyLine (s : State) : (s.onSpent).keyLine = s.keyLine := by
  unfold State.onSpent; (try dsimp only); (repeat' split) <;> simp
@[simp] theorem State.onSpent_cfg (s : State) : (s.onSpent).cfg = s.cfg := by
  unfold State.onSpent; (try dsimp only); (repeat' split) <;> simp
@[simp] theorem State.onSpent_choices (s : State) : (s.onSpent).choices = s.choices := by
  unfold State.onSpent; (try dsimp only); (repeat' split) <;> simp
@[simp] theorem State.onSpent_held (s : State) (q : PortId) : ((s.onSpent).port q).held = (s.port q).held := by
  unfold State.onSpent; (try dsimp only); (repeat' split) <;> simp
@[simp] theorem State.onSpent_posted (s : State) (q : PortId) : ((s.onSpent).port q).posted = (s.port q).posted := by
  unfold State.onSpent; (try dsimp only); (repeat' split) <;> simp

/-! ### testWear -/

@[simp] theorem State.testWear_pending (s : State) : (s.testWear).pending = s.pending := by
  unfold State.testWear; (try dsimp only); (repeat' split) <;> simp
@[simp] theorem State.testWear_run (s : State) : (s.testWear).run = s.run := by
  unfold State.testWear; (try dsimp only); (repeat' split) <;> simp
@[simp] theorem State.testWear_resetInput (s : State) : (s.testWear).resetInput = s.resetInput := by
  unfold State.testWear; (try dsimp only); (repeat' split) <;> simp
@[simp] theorem State.testWear_marker (s : State) : (s.testWear).marker = s.marker := by
  unfold State.testWear; (try dsimp only); (repeat' split) <;> simp
@[simp] theorem State.testWear_lanes (s : State) : (s.testWear).lanes = s.lanes := by
  unfold State.testWear; (try dsimp only); (repeat' split) <;> simp
@[simp] theorem State.testWear_policy (s : State) : (s.testWear).policy = s.policy := by
  unfold State.testWear; (try dsimp only); (repeat' split) <;> simp
@[simp] theorem State.testWear_engine (s : State) : (s.testWear).engine = s.engine := by
  unfold State.testWear; (try dsimp only); (repeat' split) <;> simp
@[simp] theorem State.testWear_store (s : State) : (s.testWear).store = s.store := by
  unfold State.testWear; (try dsimp only); (repeat' split) <;> simp
@[simp] theorem State.testWear_spill (s : State) : (s.testWear).spill = s.spill := by
  unfold State.testWear; (try dsimp only); (repeat' split) <;> simp
@[simp] theorem State.testWear_meter (s : State) : (s.testWear).meter = s.meter := by
  unfold State.testWear; (try dsimp only); (repeat' split) <;> simp
@[simp] theorem State.testWear_link (s : State) : (s.testWear).link = s.link := by
  unfold State.testWear; (try dsimp only); (repeat' split) <;> simp
@[simp] theorem State.testWear_intake (s : State) : (s.testWear).intake = s.intake := by
  unfold State.testWear; (try dsimp only); (repeat' split) <;> simp
@[simp] theorem State.testWear_batch (s : State) : (s.testWear).batch = s.batch := by
  unfold State.testWear; (try dsimp only); (repeat' split) <;> simp
@[simp] theorem State.testWear_keyLine (s : State) : (s.testWear).keyLine = s.keyLine := by
  unfold State.testWear; (try dsimp only); (repeat' split) <;> simp
@[simp] theorem State.testWear_lp (s : State) : (s.testWear).lp = s.lp := by
  unfold State.testWear; (try dsimp only); (repeat' split) <;> simp
@[simp] theorem State.testWear_cfg (s : State) : (s.testWear).cfg = s.cfg := by
  unfold State.testWear; (try dsimp only); (repeat' split) <;> simp
@[simp] theorem State.testWear_choices (s : State) : (s.testWear).choices = s.choices := by
  unfold State.testWear; (try dsimp only); (repeat' split) <;> simp
@[simp] theorem State.testWear_held (s : State) (q : PortId) : ((s.testWear).port q).held = (s.port q).held := by
  unfold State.testWear; (try dsimp only); (repeat' split) <;> simp
@[simp] theorem State.testWear_posted (s : State) (q : PortId) : ((s.testWear).port q).posted = (s.port q).posted := by
  unfold State.testWear; (try dsimp only); (repeat' split) <;> simp

/-! ### afterUse -/

@[simp] theorem State.afterUse_pending (s : State) : (s.afterUse).pending = s.pending := by
  unfold State.afterUse; (try dsimp only); (repeat' split) <;> simp
@[simp] theorem State.afterUse_run (s : State) : (s.afterUse).run = s.run := by
  unfold State.afterUse; (try dsimp only); (repeat' split) <;> simp
@[simp] theorem State.afterUse_resetInput (s : State) : (s.afterUse).resetInput = s.resetInput := by
  unfold State.afterUse; (try dsimp only); (repeat' split) <;> simp
@[simp] theorem State.afterUse_marker (s : State) : (s.afterUse).marker = s.marker := by
  unfold State.afterUse; (try dsimp only); (repeat' split) <;> simp
@[simp] theorem State.afterUse_lanes (s : State) : (s.afterUse).lanes = s.lanes := by
  unfold State.afterUse; (try dsimp only); (repeat' split) <;> simp
@[simp] theorem State.afterUse_policy (s : State) : (s.afterUse).policy = s.policy := by
  unfold State.afterUse; (try dsimp only); (repeat' split) <;> simp
@[simp] theorem State.afterUse_engine (s : State) : (s.afterUse).engine = s.engine := by
  unfold State.afterUse; (try dsimp only); (repeat' split) <;> simp
@[simp] theorem State.afterUse_store (s : State) : (s.afterUse).store = s.store := by
  unfold State.afterUse; (try dsimp only); (repeat' split) <;> simp
@[simp] theorem State.afterUse_spill (s : State) : (s.afterUse).spill = s.spill := by
  unfold State.afterUse; (try dsimp only); (repeat' split) <;> simp
@[simp] theorem State.afterUse_meter (s : State) : (s.afterUse).meter = s.meter := by
  unfold State.afterUse; (try dsimp only); (repeat' split) <;> simp
@[simp] theorem State.afterUse_link (s : State) : (s.afterUse).link = s.link := by
  unfold State.afterUse; (try dsimp only); (repeat' split) <;> simp
@[simp] theorem State.afterUse_intake (s : State) : (s.afterUse).intake = s.intake := by
  unfold State.afterUse; (try dsimp only); (repeat' split) <;> simp
@[simp] theorem State.afterUse_batch (s : State) : (s.afterUse).batch = s.batch := by
  unfold State.afterUse; (try dsimp only); (repeat' split) <;> simp
@[simp] theorem State.afterUse_keyLine (s : State) : (s.afterUse).keyLine = s.keyLine := by
  unfold State.afterUse; (try dsimp only); (repeat' split) <;> simp
@[simp] theorem State.afterUse_cfg (s : State) : (s.afterUse).cfg = s.cfg := by
  unfold State.afterUse; (try dsimp only); (repeat' split) <;> simp
@[simp] theorem State.afterUse_choices (s : State) : (s.afterUse).choices = s.choices := by
  unfold State.afterUse; (try dsimp only); (repeat' split) <;> simp
@[simp] theorem State.afterUse_held (s : State) (q : PortId) : ((s.afterUse).port q).held = (s.port q).held := by
  unfold State.afterUse; (try dsimp only); (repeat' split) <;> simp
@[simp] theorem State.afterUse_posted (s : State) (q : PortId) : ((s.afterUse).port q).posted = (s.port q).posted := by
  unfold State.afterUse; (try dsimp only); (repeat' split) <;> simp

/-! ### setBackUse -/

@[simp] theorem State.setBackUse_pending (e : Nat) (s : State) : (s.setBackUse e).pending = s.pending := by
  unfold State.setBackUse; (try dsimp only); (repeat' split) <;> simp
@[simp] theorem State.setBackUse_run (e : Nat) (s : State) : (s.setBackUse e).run = s.run := by
  unfold State.setBackUse; (try dsimp only); (repeat' split) <;> simp
@[simp] theorem State.setBackUse_resetInput (e : Nat) (s : State) : (s.setBackUse e).resetInput = s.resetInput := by
  unfold State.setBackUse; (try dsimp only); (repeat' split) <;> simp
@[simp] theorem State.setBackUse_marker (e : Nat) (s : State) : (s.setBackUse e).marker = s.marker := by
  unfold State.setBackUse; (try dsimp only); (repeat' split) <;> simp
@[simp] theorem State.setBackUse_lanes (e : Nat) (s : State) : (s.setBackUse e).lanes = s.lanes := by
  unfold State.setBackUse; (try dsimp only); (repeat' split) <;> simp
@[simp] theorem State.setBackUse_policy (e : Nat) (s : State) : (s.setBackUse e).policy = s.policy := by
  unfold State.setBackUse; (try dsimp only); (repeat' split) <;> simp
@[simp] theorem State.setBackUse_engine (e : Nat) (s : State) : (s.setBackUse e).engine = s.engine := by
  unfold State.setBackUse; (try dsimp only); (repeat' split) <;> simp
@[simp] theorem State.setBackUse_store (e : Nat) (s : State) : (s.setBackUse e).store = s.store := by
  unfold State.setBackUse; (try dsimp only); (repeat' split) <;> simp
@[simp] theorem State.setBackUse_spill (e : Nat) (s : State) : (s.setBackUse e).spill = s.spill := by
  unfold State.setBackUse; (try dsimp only); (repeat' split) <;> simp
@[simp] theorem State.setBackUse_meter (e : Nat) (s : State) : (s.setBackUse e).meter = s.meter := by
  unfold State.setBackUse; (try dsimp only); (repeat' split) <;> simp
@[simp] theorem State.setBackUse_link (e : Nat) (s : State) : (s.setBackUse e).link = s.link := by
  unfold State.setBackUse; (try dsimp only); (repeat' split) <;> simp
@[simp] theorem State.setBackUse_intake (e : Nat) (s : State) : (s.setBackUse e).intake = s.intake := by
  unfold State.setBackUse; (try dsimp only); (repeat' split) <;> simp
@[simp] theorem State.setBackUse_batch (e : Nat) (s : State) : (s.setBackUse e).batch = s.batch := by
  unfold State.setBackUse; (try dsimp only); (repeat' split) <;> simp
@[simp] theorem State.setBackUse_keyLine (e : Nat) (s : State) : (s.setBackUse e).keyLine = s.keyLine := by
  unfold State.setBackUse; (try dsimp only); (repeat' split) <;> simp
@[simp] theorem State.setBackUse_lp (e : Nat) (s : State) : (s.setBackUse e).lp = s.lp := by
  unfold State.setBackUse; (try dsimp only); (repeat' split) <;> simp
@[simp] theorem State.setBackUse_up (e : Nat) (s : State) : (s.setBackUse e).up = s.up := by
  unfold State.setBackUse; (try dsimp only); (repeat' split) <;> simp
@[simp] theorem State.setBackUse_cfg (e : Nat) (s : State) : (s.setBackUse e).cfg = s.cfg := by
  unfold State.setBackUse; (try dsimp only); (repeat' split) <;> simp
@[simp] theorem State.setBackUse_choices (e : Nat) (s : State) : (s.setBackUse e).choices = s.choices := by
  unfold State.setBackUse; (try dsimp only); (repeat' split) <;> simp
@[simp] theorem State.setBackUse_held (e : Nat) (s : State) (q : PortId) : ((s.setBackUse e).port q).held = (s.port q).held := by
  unfold State.setBackUse; (try dsimp only); (repeat' split) <;> simp
@[simp] theorem State.setBackUse_posted (e : Nat) (s : State) (q : PortId) : ((s.setBackUse e).port q).posted = (s.port q).posted := by
  unfold State.setBackUse; (try dsimp only); (repeat' split) <;> simp

end Sys2Proof.Machine
end

