-- ==== Sys2Proof/Laws/Transactions.lean ====
section
/-! SUPPORT. What the two shared transaction forms do: a posted write that is applied and a read that reaches its
block (R181, R182). -/

namespace Sys2Proof.Machine

theorem whenRunning_of_running {s : State} (h : s.run = .running) (f : State → State) : whenRunning s f = f s := by
  simp [whenRunning, h]

theorem whenRunning_of_not_running {s : State} (h : s.run ≠ .running) (f : State → State) : whenRunning s f = s := by
  simp [whenRunning, h]

theorem PostedWrite.shortened_of_le {w : PostedWrite} (h : w.words.length ≤ Config.burstLimit) : w.shortened = w := by
  cases w; simp_all [PostedWrite.shortened, shorten, List.take_of_length_le]

theorem shorten_of_le {ws : List DataWord} (h : ws.length ≤ Config.burstLimit) : shorten ws = ws := by
  simp [shorten, List.take_of_length_le h]

theorem State.noteBurst_of_le (s : State) (p : PortId) {n : Nat} (h : n ≤ Config.burstLimit) : s.noteBurst p n = s := by
  simp [State.noteBurst, Nat.not_lt.mpr h]

@[simp] theorem State.setPosted_held (s : State) (p : PortId) (ws : List PostedWrite) (q : PortId) :
    ((s.setPosted p ws).port q).held = (s.port q).held := by
  cases p <;> cases q <;> rfl

theorem State.resumePort_of_held_none {s : State} {p : PortId} (h : (s.port p).held = none) : s.resumePort p = s := by
  simp [State.resumePort, h]

/-- A port that sends no answer has none to end. -/
theorem State.endAnswer_of_not_sending {s : State} {p : PortId} (h : (s.port p).sending = false) :
    s.endAnswer p = s := by
  cases p <;> (cases s; rename_i lp up _ _; cases lp; cases up; cases h; rfl)

/-- In the state in which a write is applied, the port holds nothing and the part runs. -/
theorem State.Applies.held {s s' : State} {p : PortId} {w : PostedWrite} (h : s.Applies p w s') :
    (s'.port p).held = none := by
  obtain ⟨-, hh, -, ⟨-, rfl⟩ | ⟨rest, -, rfl⟩⟩ := h <;> simp [hh]

/-- A write that is applied has its effect on the state `s'`, if the effect leaves the port's hold alone. -/
theorem State.portWrite_of_applies {s s' : State} {p : PortId} {w : PostedWrite} {f : State → State}
    (h : s.Applies p w s') (hf : ((f s').port p).held = (s'.port p).held) : s.portWrite p .apply w f = f s' := by
  have hs := h.held
  obtain ⟨hr, hh, hl, ⟨hp, rfl⟩ | ⟨rest, hp, rfl⟩⟩ := h
  · simp [State.portWrite, whenRunning_of_running hr, hp, hh, State.noteBurst_of_le _ _ hl]
  · simp only [State.portWrite, whenRunning_of_running hr, hp, PostedWrite.shortened_of_le hl, if_pos]
    exact State.resumePort_of_held_none (by rw [hf, hs])

/-- A read on an open port reaches its block at once. -/
theorem State.portRead_of_open {s : State} {p : PortId} (h : s.Open p) (r : ReadRequest) :
    s.portRead p r = s.answerRead p r s.cfg.holdLimit := by
  obtain ⟨hr, hh, hp⟩ := h
  simp [State.portRead, whenRunning_of_running hr, hh, hp]

/-- A read whose port has posted writes is held (R181, R182). -/
theorem State.portRead_of_posted {s : State} {p : PortId} (hr : s.run = .running) (hh : (s.port p).held = none)
    (hp : (s.port p).posted ≠ []) (r : ReadRequest) :
    s.portRead p r = s.setHeld p (some ⟨.read r, s.cfg.holdLimit, false⟩) := by
  simp [State.portRead, whenRunning_of_running hr, hh, hp]

/-- A recorded refusal in the terms of the port alone (R184). -/
theorem State.recordRefusal_eq (s : State) (p : PortId) (t : Target) (i : Word) (h : Header) (r : Reason) :
    s.recordRefusal p t i h r = s.updPort p fun q => q.refused (refusal t i h r) := by
  cases p <;> rfl

/-- An answer in the terms of the port alone (R184). -/
theorem State.answerWith_eq (s : State) (p : PortId) (st : ReadStatus) (h : Header) (ws : List Word) :
    s.answerWith p st h ws = s.updPort p fun q => q.answered st h ws := rfl

end Sys2Proof.Machine
end

