-- ==== Sys2Proof/Laws/Moves.lean ====
section
/-! SUPPORT. What any command can do to the state: every command is a run of the basic moves below. An invariant that
each move keeps is kept by every command. -/

namespace Sys2Proof.Machine

/-- A change of an entry that keeps its charge and slots, brings no entry out of custody and offers none. -/
def Entry.Gentle (x y : Entry) : Prop :=
  y.charge = x.charge ∧ y.slots = x.slots ∧ (y.state.out = true → x.state.out = true) ∧
    (y.state.isOffered = true → x.state.isOffered = true)

/-- The basic moves. -/
inductive Move : State → State → Prop
  | run (s : State) (r : RunState) (h : s.resetInput = true → r ≠ .running) : Move s (s.setRun r)
  | resetInput (s : State) (b : Bool) (h : b = true → s.run ≠ .running) : Move s (s.setResetInput b)
  | marker (s : State) (b : Bool) : Move s (s.setMarker b)
  | lanes (s : State) (f : Vector Lane 16 → Vector Lane 16) : Move s (s.updLanes f)
  | policy (s : State) (p : Vector PolicyEntry 15) : Move s (s.setPolicy p)
  | engine (s : State) (f : Engine → Engine) : Move s (s.updEngine f)
  | ring (s : State) (a : Nat) (bytes : List Byte) :
    Move s (s.updStore fun st => { st with ring := Memory.writeRun st.ring a bytes })
  | armed (s : State) (b : Bool) : Move s (s.updStore fun st => { st with armed := b })
  | entry (s : State) (n : Nat) (f : Entry → Entry) (h : ∀ x, Entry.Gentle x (f x)) :
    Move s (s.updStore fun st => st.updEntry n f)
  | entries (s : State) (f : Entry → Entry) (h : ∀ x, Entry.Gentle x (f x)) :
    Move s (s.updStore fun st => { st with directory := st.directory.map f })
  | offer (s : State) (n timer : Nat) (h : offeredCount s.store.directory < Config.offerWindow) :
    Move s (s.updStore fun st => st.updEntry n fun x => { x with state := .offered timer })
  | allocate (s : State) (e : Entry) (hn : s.store.directory.length < Config.directoryMax)
    (hs : s.store.slotsUsed + e.slots ≤ Config.ringSlots) :
    Move s ((s.updStore fun st => st.allocate e).setMeter (s.meter + e.charge))
  | removeTail (s : State) (e : Entry) (h : s.store.directory.getLast? = some e) :
    Move s ((s.updStore fun st => st.removeTail e).release e.charge)
  | reclaim (s : State) : Move s (s.updStore Store.reclaim)
  | confirm (s : State) (e : Entry) (h : findEntry e.number s.store.directory = some e) :
    Move s ((s.updStore fun st => st.updEntry e.number Entry.confirmed).release e.charge)
  | spillOut (s : State) (e : Entry) (h : findEntry e.number s.store.directory = some e) :
    Move s ((s.updStore fun st => st.updEntry e.number fun x => { x with state := .spilled, charge := 0 }).updSpill
      fun sp => { reservation := none, list := listAfterSpill e sp.list })
  | ackSpill (s : State) (n : Nat) (x : SpillItem) (h : findSpill n s.spill.list = some x) :
    Move s ((s.updSpill fun sp => { sp with list := removeSpill n sp.list }).release x.charge)
  | reservation (s : State) (f : Option Reservation → Option Reservation) :
    Move s (s.updSpill fun sp => { sp with reservation := f sp.reservation })
  | link (s : State) (l : Link) (h : s.cfg.InRange → s.link.Consistent → l.Consistent) : Move s (s.setLink l)
  | intake (s : State) (f : Intake → Intake) : Move s (s.updIntake f)
  | batch (s : State) (f : Batch → Batch) : Move s (s.updBatch f)
  | keys (s : State) (f : KeyTable → KeyTable) (h : s.keys.Ordered → (f s.keys).Ordered) : Move s (s.updKeys f)
  | keyLine (s : State) (r : Receiver) : Move s (s.setKeyLine r)
  | port (s : State) (p : PortId) (f : Port → Port) (h : (s.port p).Sound p → (f (s.port p)).Sound p) :
    Move s (s.updPort p f)
  | cfg (s : State) (c : Settings) (h : s.cfg.InRange → c.InRange) : Move s (s.setCfg c)
  | choice (s : State) : Move s s.nextChoice
  | cold (s : State) : Move s s.coldStart

/-- A run of basic moves. -/
inductive Moves : State → State → Prop
  | refl (s : State) : Moves s s
  | step {s t u : State} : Move s t → Moves t u → Moves s u

theorem Moves.one {s t : State} (h : Move s t) : Moves s t := .step h (.refl t)

theorem Moves.trans {s t u : State} (h₁ : Moves s t) (h₂ : Moves t u) : Moves s u := by
  induction h₁ with
  | refl => exact h₂
  | step h _ ih => exact .step h (ih h₂)

/-- A run whose last part is known. -/
theorem Moves.last {s t u : State} (h₂ : Moves t u) (h₁ : Moves s t) : Moves s u := h₁.trans h₂

/-- A run whose last move is known. -/
theorem Moves.lastMove {s t u : State} (h₂ : Move t u) (h₁ : Moves s t) : Moves s u := h₁.trans (.one h₂)

/-- An invariant that every basic move keeps is kept by a run of them. -/
theorem Moves.keeps {P : State → Prop} (hP : ∀ s t, Move s t → P s → P t) {s t : State} (h : Moves s t) :
    P s → P t := by
  induction h with
  | refl => exact id
  | step h _ ih => exact fun hs => ih (hP _ _ h hs)

/-! ### Ports -/

/-- An event that a port has. -/
def portHas (p : PortId) (e : Event) : Bool := e.bit &&& ~~~portEvents p == 0

theorem Port.Sound.post {q : Port} {p : PortId} {e : Event} (he : portHas p e = true) (h : q.Sound p) :
    ({ q with events := q.events ||| e.bit } : Port).Sound p := by
  obtain ⟨h1, h2, h3, h4⟩ := h
  refine ⟨?_, h2, h3, h4⟩
  have he' : e.bit &&& ~~~portEvents p = 0 := by simpa [portHas] using he
  simp only [BitVec.and_comm _ (~~~portEvents p), BitVec.and_or_distrib_left] at *
  rw [h1, he']; rfl

theorem State.post_moves (s : State) (p : PortId) (e : Event) (he : portHas p e = true) : Moves s (s.post p e) :=
  .one (.port s p _ fun h => h.post he)

theorem State.postBoth_moves (s : State) (e : Event) (hl : portHas .lp e = true) (hu : portHas .up e = true) :
    Moves s (s.postBoth e) := (s.post_moves .lp e hl).trans (State.post_moves _ .up e hu)

theorem Reason.event_has (r : Reason) (p : PortId) : portHas p r.event = true := by
  cases r <;> cases p <;> rfl

theorem State.recordRefusal_moves (s : State) (p : PortId) (t : Target) (i : Word) (h : Header) (r : Reason) :
    Moves s (s.recordRefusal p t i h r) := by
  refine .trans (.one (.port s p _ fun hq => ?_)) (State.post_moves _ p _ (r.event_has p))
  exact ⟨hq.1, hq.2.1, Nat.min_le_left _ _, hq.2.2.2⟩

theorem State.noteBurst_moves (s : State) (p : PortId) (n : Nat) : Moves s (s.noteBurst p n) := by
  unfold State.noteBurst
  split
  · exact .trans (.one (.port s p _ fun hq => hq)) (State.post_moves _ p _ (by cases p <;> rfl))
  · exact .refl s

theorem State.answerWith_moves (s : State) (p : PortId) (st : ReadStatus) (h : Header) (ws : List Word) :
    Moves s (s.answerWith p st h ws) := .one (.port s p _ fun hq => hq)

theorem State.denyRead_moves (s : State) (p : PortId) (t : Target) (i : Word) (h : Header) :
    Moves s (s.denyRead p t i h) := (s.recordRefusal_moves p t i h .denied).trans (State.answerWith_moves _ ..)

theorem State.endAnswer_moves (s : State) (p : PortId) : Moves s (s.endAnswer p) := .one (.port s p _ fun hq => hq)

theorem State.setHeld_moves (s : State) (p : PortId) (h : Option Held) : Moves s (s.setHeld p h) :=
  (s.endAnswer_moves p).trans (.one (.port _ p _ fun hq => hq))

theorem State.setPosted_moves (s : State) (p : PortId) (ws : List PostedWrite)
    (h : ws.length ≤ Config.postedPlaces ∨ ws.length ≤ (s.port p).posted.length) : Moves s (s.setPosted p ws) :=
  .one (.port s p _ fun hq => ⟨hq.1, hq.2.1, hq.2.2.1, h.elim id fun h => Nat.le_trans h hq.2.2.2⟩)

/-! ### Lanes, link, store -/

theorem State.updLane_moves (s : State) (l : Fin 16) (f : Lane → Lane) : Moves s (s.updLane l f) :=
  .one (.lanes s _)

theorem State.laneOutcome_moves (s : State) (l : Fin 16) (f : Lane → Lane) : Moves s (s.laneOutcome l f) :=
  (s.updLane_moves l _).trans (State.post_moves _ _ _ rfl)

theorem State.moveLink_moves (s : State) (l : Link) (h : s.cfg.InRange → s.link.Consistent → l.Consistent) :
    Moves s (s.moveLink l) := by
  unfold State.moveLink
  split
  · exact .one (.link s l h)
  · exact .trans (.one (.link s l h)) (State.post_moves _ _ _ rfl)

theorem Link.miss_consistent {l : Link} {n : Nat} (hn : n ≤ 15) (h : l.Consistent) : (l.miss n).Consistent := by
  obtain ⟨h1, h2, h3, h4, h5⟩ := h
  unfold Link.miss
  (repeat' split) <;> simp_all [Link.Consistent] <;> omega

theorem Link.sign_consistent {l : Link} {n : Nat} (hn : n ≤ 15) (h : l.Consistent) : (l.sign n).Consistent := by
  obtain ⟨h1, h2, h3, h4, h5⟩ := h
  unfold Link.sign
  (repeat' split) <;> simp_all [Link.Consistent] <;> omega

theorem State.linkMiss_moves (s : State) : Moves s s.linkMiss :=
  s.moveLink_moves _ fun hc hl => Link.miss_consistent hc.2.2.2.2.2.2.2.1.2 hl

theorem State.linkSign_moves (s : State) : Moves s s.linkSign :=
  s.moveLink_moves _ fun hc hl => Link.sign_consistent hc.2.2.2.2.2.2.2.2.1.2 hl

theorem State.evalHigh_moves (s : State) : Moves s s.evalHigh := by
  unfold State.evalHigh
  split
  · exact .trans (.one (.armed s false)) (State.postBoth_moves _ _ rfl rfl)
  · exact .refl s

theorem State.evalLow_moves (s : State) : Moves s s.evalLow := by
  unfold State.evalLow
  split
  · exact .one (.armed s true)
  · exact .refl s

theorem State.reclaim_moves (s : State) : Moves s s.reclaim := by
  unfold State.reclaim
  split
  · exact .refl s
  · exact .trans (.one (.reclaim s)) (State.evalLow_moves _)

theorem State.clearAwaiting_moves (s : State) (n : Nat) : Moves s (s.clearAwaiting n) :=
  .one (.entry s n _ fun _ => ⟨rfl, rfl, id, id⟩)

/-! ### Keys -/

/-- `k'` holds in each slot what `k` holds, up to uses, wear and bytes, or nothing, and a highest epoch at least as
high. -/
def KeyTable.Under (k' k : KeyTable) : Prop :=
  k.highest ≤ k'.highest ∧ ∀ i : Fin 3, ∀ v, k'.slots[i] = some v →
    ∃ w, k.slots[i] = some w ∧ v.role = w.role ∧ v.epoch = w.epoch

theorem KeyTable.Ordered.of_under {k k' : KeyTable} (h : k.Ordered) (hu : k'.Under k) : k'.Ordered := by
  intro i v hv
  obtain ⟨v', hv', hr, he⟩ := hu.2 i v hv
  refine ⟨he ▸ (Nat.le_trans (h i v' hv').1 hu.1), fun j hij w hw => ?_⟩
  obtain ⟨w', hw', hr', he'⟩ := hu.2 j w hw
  have := (h i v' hv').2 j hij w' hw'
  rw [hr, hr', he, he']; exact this

theorem KeyTable.mapKeys_under (k : KeyTable) (f : WrapKey → Option WrapKey)
    (hf : ∀ w v, f w = some v → v.role = w.role ∧ v.epoch = w.epoch) : (k.mapKeys f).Under k := by
  refine ⟨Nat.le_refl _, fun i v hv => ?_⟩
  simp only [KeyTable.mapKeys, Fin.getElem_fin, Vector.getElem_map, Option.bind_eq_some_iff] at hv
  obtain ⟨w, hw, hfw⟩ := hv
  exact ⟨w, hw, hf w v hfw⟩

theorem KeyTable.updRole_under (k : KeyTable) (r : Role) (f : WrapKey → Option WrapKey)
    (hf : ∀ w v, f w = some v → v.role = w.role ∧ v.epoch = w.epoch) : (k.updRole r f).Under k := by
  refine k.mapKeys_under _ fun w v h => ?_
  split at h
  · exact hf w v h
  · cases h; exact ⟨rfl, rfl⟩

theorem KeyTable.Under.of_eq {k k' : KeyTable} (hs : k'.slots = k.slots) (hh : k'.highest = k.highest) : k'.Under k :=
  ⟨hh ▸ Nat.le_refl _, fun _ v h => ⟨v, hs ▸ h, rfl, rfl⟩⟩

theorem State.keys_moves (s : State) (f : KeyTable → KeyTable) (h : (f s.keys).Under s.keys) :
    Moves s (s.updKeys f) := .one (.keys s f fun ho => ho.of_under h)

/-- A key found under a role stands in a slot. -/
theorem KeyTable.find_eq_some {k : KeyTable} {r : Role} {w : WrapKey} (h : k.find r = some w) :
    ∃ i : Fin 3, k.slots[i] = some w ∧ w.role = r := by
  obtain ⟨o, ho, hw⟩ := List.exists_of_findSome?_eq_some h
  simp only [Option.filter_eq_some_iff, decide_eq_true_eq] at hw
  obtain ⟨rfl, hr⟩ := hw
  obtain ⟨i, hi, he⟩ := Vector.mem_iff_getElem.mp (Vector.mem_toList_iff.mp ho)
  exact ⟨⟨i, hi⟩, he, hr⟩

/-- No slot holds a role that is not found. -/
theorem KeyTable.find_eq_none {k : KeyTable} {r : Role} (h : k.find r = none) {i : Fin 3} {w : WrapKey}
    (hw : k.slots[i] = some w) : w.role ≠ r := by
  intro hr
  have := (List.findSome?_eq_none_iff.mp h) (some w)
    (Vector.mem_toList_iff.mpr (Vector.mem_iff_getElem.mpr ⟨i, i.isLt, hw⟩))
  simp [hr] at this

theorem KeyTable.rollRoles_ordered {k : KeyTable} (hr : k.find .retiring = none) (h : k.Ordered) :
    k.rollRoles.Ordered := by
  intro i v hv
  simp only [KeyTable.rollRoles, KeyTable.mapKeys, Fin.getElem_fin, Vector.getElem_map, Option.bind_eq_some_iff] at hv
  obtain ⟨v', hv', hfv⟩ := hv
  have hnr := KeyTable.find_eq_none hr (i := i) hv'
  have hh := h i v' hv'
  refine ⟨?_, fun j hij w hw => ?_⟩
  · show v.epoch ≤ k.highest
    cases hrole : v'.role <;> simp only [hrole, Option.some.injEq] at hfv <;> subst hfv <;> exact hh.1
  · simp only [KeyTable.rollRoles, KeyTable.mapKeys, Fin.getElem_fin, Vector.getElem_map,
      Option.bind_eq_some_iff] at hw
    obtain ⟨w', hw', hfw⟩ := hw
    have hnr' := KeyTable.find_eq_none hr (i := j) hw'
    have h2 := hh.2 j hij w' hw'
    cases h1 : v'.role <;> cases h3 : w'.role <;> simp_all [Role.rank] <;> subst hfv hfw <;> simp_all

theorem State.campaignLook_moves (s : State) : Moves s s.campaignLook := by
  unfold State.campaignLook
  split
  · exact s.keys_moves _ (.of_eq rfl rfl)
  · exact .refl s

theorem KeyTable.erase_under (k : KeyTable) (r : Role) : (k.updRole r fun _ => none).Under k :=
  k.updRole_under r _ (by simp)

theorem State.eraseRetiring_moves (s : State) (a : Bool) : Moves s (s.eraseRetiring a) := by
  have h : Moves s (s.updKeys fun k => { k.updRole .retiring (fun _ => none) with retiring := 0, campaign := none }) :=
    s.keys_moves _ (s.keys.erase_under .retiring)
  unfold State.eraseRetiring
  split
  · exact h.trans (State.post_moves _ _ _ rfl)
  · exact h

theorem State.roll_moves (s : State) (a : Bool) (hr : s.keys.find .retiring = none) : Moves s (s.roll a) := by
  unfold State.roll
  split
  · exact .one (.keys s _ fun h => KeyTable.rollRoles_ordered hr h)
  · rename_i w _
    have h : Moves s (s.updKeys fun k => { k.rollRoles with retiring := custodyCount w.epoch s.store.directory }) :=
      .one (.keys s _ fun h => KeyTable.rollRoles_ordered hr h)
    dsimp only
    split
    · exact h.trans (State.eraseRetiring_moves _ a)
    · exact h.trans (State.campaignLook_moves _)

theorem KeyTable.find_erased (k : KeyTable) (r : Role) : (k.updRole r fun _ => none).find r = none := by
  refine List.findSome?_eq_none_iff.mpr fun o ho => ?_
  simp only [KeyTable.updRole, KeyTable.mapKeys, Vector.toList_map, List.mem_map] at ho
  obtain ⟨o', -, rfl⟩ := ho
  cases o' with
  | none => rfl
  | some w => by_cases hw : w.role = r <;> simp [hw]

theorem State.eraseRetiring_find (s : State) (a : Bool) : (s.eraseRetiring a).keys.find .retiring = none := by
  unfold State.eraseRetiring
  split
  · exact s.keys.find_erased .retiring
  · exact s.keys.find_erased .retiring

theorem State.settleRetiring_moves (s : State) (a : Bool) : Moves s (s.settleRetiring a) := by
  unfold State.settleRetiring
  split
  · exact .refl s
  · rename_i w _
    have h : Moves s (s.updKeys fun k => { k with retiring := custodyCount w.epoch s.store.directory }) :=
      s.keys_moves _ (.of_eq rfl rfl)
    dsimp only
    refine h.trans ?_
    split
    · split
      · exact (State.eraseRetiring_moves _ a).trans (State.roll_moves _ a (State.eraseRetiring_find _ a))
      · exact State.eraseRetiring_moves _ a
    · exact .refl _

theorem State.onSpent_moves (s : State) : Moves s s.onSpent := by
  unfold State.onSpent
  split
  · exact State.roll_moves _ _ (by assumption)
  · exact s.keys_moves _ (.of_eq rfl rfl)
  · exact State.postBoth_moves _ _ rfl rfl

theorem KeyTable.countUse_under (k : KeyTable) : k.countUse.Under k :=
  k.updRole_under _ _ (by rintro w v h; cases h; exact ⟨rfl, rfl⟩)

theorem State.testWear_moves (s : State) : Moves s s.testWear := by
  unfold State.testWear
  split
  · split
    · refine .trans (s.keys_moves _ (s.keys.updRole_under _ _ ?_)) (State.post_moves _ _ _ rfl)
      rintro w v h; cases h; exact ⟨rfl, rfl⟩
    · exact .refl s
  · exact .refl s

theorem State.afterUse_moves (s : State) : Moves s s.afterUse := by
  unfold State.afterUse
  dsimp only
  split
  · exact s.testWear_moves.trans (State.onSpent_moves _)
  · exact s.testWear_moves

theorem State.setBackUse_moves (s : State) (epoch : Nat) : Moves s (s.setBackUse epoch) := by
  have h : Moves s (s.updKeys fun k =>
      k.mapKeys fun w => some (if w.epoch = epoch then { w with uses := w.uses - 1 } else w)) := by
    refine s.keys_moves _ (s.keys.mapKeys_under _ fun w v h => ?_)
    cases h; split <;> exact ⟨rfl, rfl⟩
  unfold State.setBackUse
  dsimp only
  split
  · exact h.trans (State.keys_moves _ _ (.of_eq rfl rfl))
  · exact h

end Sys2Proof.Machine
end

