-- ==== Sys2Proof/Laws/CommandMoves.lean ====
section
/-! SUPPORT. Every command is a run of basic moves: the one lemma `exec_moves`, from one lemma for each meaning. -/

namespace Sys2Proof.Machine

theorem whenRunning_moves (s : State) (f : State → State) (h : ∀ s, Moves s (f s)) : Moves s (whenRunning s f) := by
  unfold whenRunning
  split
  · exact h s
  · exact .refl s

/-! ### Reads -/

theorem State.readLaneCmd_moves (s : State) (lane : Fin 16) (hdr : Header) : Moves s (s.readLaneCmd lane hdr) :=
  (s.updLane_moves lane _).trans (State.answerWith_moves _ ..)

theorem State.readLaneRsp_moves (s : State) (lane : Fin 16) (hdr : Header) : Moves s (s.readLaneRsp lane hdr) := by
  unfold State.readLaneRsp
  split
  · exact (s.updLane_moves lane _).trans (State.answerWith_moves _ ..)
  · exact s.answerWith_moves ..

theorem State.readRing_moves (s : State) (p : PortId) (index : Word) (hdr : Header) (count : Nat) :
    Moves s (s.readRing p index hdr count) := by
  unfold State.readRing
  dsimp only
  split
  · exact (s.answerWith_moves ..).trans (State.noteBurst_moves _ ..)
  · exact (s.denyRead_moves ..).trans (State.noteBurst_moves _ ..)

theorem State.readOffer_moves (s : State) (r : ReadRequest) (limit : Nat) : Moves s (s.readOffer r limit) := by
  unfold State.readOffer
  split
  · exact s.answerWith_moves ..
  · rename_i h
    split
    · exact s.answerWith_moves ..
    · split
      · exact .trans (.one (.offer s _ _ (by omega))) (State.answerWith_moves _ ..)
      · exact s.setHeld_moves _ _

theorem Entry.gentle_state {e : Entry} {st : EntryState} (h₁ : st.out = false) (h₂ : st.isOffered = false) :
    Entry.Gentle e { e with state := st } := ⟨rfl, rfl, by simp [h₁], by simp [h₂]⟩

theorem State.readSpill_moves (s : State) (r : ReadRequest) (limit : Nat) : Moves s (s.readSpill r limit) := by
  unfold State.readSpill
  repeat' split
  · exact s.denyRead_moves ..
  · exact s.answerWith_moves ..
  · exact s.answerWith_moves ..
  · exact s.setHeld_moves _ _
  · exact s.answerWith_moves ..
  · exact .trans (.one (.entry s _ _ fun _ => Entry.gentle_state rfl rfl))
      (.trans (.one (.reservation _ fun _ => _)) (State.answerWith_moves _ ..))

theorem State.readControl_moves (s : State) (p : PortId) (code : BitVec 5) (index : Word) (hdr : Header) (count : Nat) :
    Moves s (s.readControl p code index hdr count) := (s.answerWith_moves ..).trans (State.noteBurst_moves _ ..)

theorem State.answerRead_moves (s : State) (p : PortId) (r : ReadRequest) (limit : Nat) :
    Moves s (s.answerRead p r limit) := by
  unfold State.answerRead
  split
  · exact s.readLaneCmd_moves ..
  · exact s.readLaneRsp_moves ..
  · exact s.readRing_moves ..
  · exact s.readOffer_moves ..
  · exact s.readSpill_moves ..
  · exact s.readControl_moves ..

/-! ### Transactions -/

theorem State.takePlace_moves (s : State) (p : PortId) (w : PostedWrite)
    (h : (s.port p).posted.length < Config.postedPlaces) : Moves s (s.takePlace p w) :=
  (s.endAnswer_moves p).trans ((State.setPosted_moves _ p _ (.inl (by
    simp only [List.length_append, List.length_singleton]; omega))).trans (State.noteBurst_moves _ ..))

theorem State.admitIntake_moves (s : State) (w : PostedWrite) (h : s.intakeAdmissible = true) :
    Moves s (s.admitIntake w) := by
  simp only [State.intakeAdmissible, Bool.and_eq_true, decide_eq_true_eq] at h
  exact (s.takePlace_moves .up w h.1).trans (.one (.intake _ _))

theorem State.resumePort_moves (s : State) (p : PortId) : Moves s (s.resumePort p) := by
  unfold State.resumePort
  split
  · exact .refl s
  · split
    · split
      · exact (s.setHeld_moves p none).trans
          (State.takePlace_moves _ p _ (by cases p <;> simpa using (by assumption)))
      · exact .refl s
    · split
      · refine (s.setHeld_moves p none).trans (State.admitIntake_moves _ _ ?_)
        rename_i h
        cases p <;> exact h
      · exact .refl s
    · split
      · exact (s.setHeld_moves p none).trans (State.answerRead_moves _ ..)
      · exact .refl s

theorem State.reevaluate_moves (s : State) (p : PortId) : Moves s (s.reevaluate p) := by
  unfold State.reevaluate
  split
  · exact (s.setHeld_moves p none).trans (State.answerRead_moves _ ..)
  · exact .refl s

theorem State.postWrite_moves (s : State) (p : PortId) (w : PostedWrite) : Moves s (s.postWrite p w) := by
  unfold State.postWrite
  repeat' split
  · exact .refl s
  · exact s.takePlace_moves p w (by assumption)
  · exact s.setHeld_moves ..

theorem State.portWrite_moves (s : State) (p : PortId) (stage : Stage) (w : PostedWrite) (f : State → State)
    (h : ∀ s, Moves s (f s)) : Moves s (s.portWrite p stage w f) := by
  refine whenRunning_moves s _ fun s => ?_
  split
  · exact s.postWrite_moves p w
  · split
    · split
      · exact .refl s
      · exact (s.endAnswer_moves p).trans ((State.noteBurst_moves _ ..).trans (h _))
    · rename_i q rest hq
      split
      · exact (s.setPosted_moves p rest (.inr (by simp [hq]))).trans ((h _).trans (State.resumePort_moves _ p))
      · exact .refl s

theorem State.portRead_moves (s : State) (p : PortId) (r : ReadRequest) : Moves s (s.portRead p r) := by
  refine whenRunning_moves s _ fun s => ?_
  repeat' split
  · exact .refl s
  · exact s.answerRead_moves ..
  · exact s.setHeld_moves ..

theorem State.expireHold_moves (s : State) (p : PortId) (count : Nat) : Moves s (s.expireHold p count) := by
  unfold State.expireHold
  split
  · exact .refl s
  · refine .trans (s.setHeld_moves p none) ?_
    split
    · exact (State.recordRefusal_moves _ ..).trans (State.noteBurst_moves _ ..)
    · exact (State.recordRefusal_moves _ ..).trans (State.noteBurst_moves _ ..)
    · exact (State.recordRefusal_moves _ ..).trans ((State.answerWith_moves _ ..).trans (State.noteBurst_moves _ ..))

theorem Port.endTransactions_sound {q : Port} {p : PortId} {n : Nat} (h : q.Sound p) : (q.endTransactions n).Sound p :=
  ⟨h.1, h.2.1, h.2.2.1, Nat.zero_le _⟩

theorem State.endPort_moves (s : State) (p : PortId) : Moves s (s.endPort p) :=
  .step (.port s p _ Port.endTransactions_sound) (.one (.choice _))

theorem State.endTransactions_moves (s : State) : Moves s s.endTransactions :=
  (s.endPort_moves .lp).trans (State.endPort_moves _ .up)

/-! ### Lane commands -/

theorem laneBufEffect_moves (lane : Fin 16) (hdr : Header) (words : List DataWord) (s : State) :
    Moves s (laneBufEffect lane hdr words s) := by
  unfold laneBufEffect
  split
  · dsimp only
    split
    · exact (s.updLane_moves ..).trans (State.recordRefusal_moves _ ..)
    · exact s.updLane_moves ..
  · exact s.recordRefusal_moves ..

theorem wrapEffect_moves (lane : Fin 16) (s : State) : Moves s (wrapEffect lane s) := by
  unfold wrapEffect
  dsimp only
  (repeat' split) <;> exact s.updLane_moves ..

theorem abandonEffect_moves (lane : Fin 16) (s : State) : Moves s (abandonEffect lane s) := by
  unfold abandonEffect
  split <;> exact s.updLane_moves ..

theorem resetLaneEffect_moves (lane : Fin 16) (s : State) : Moves s (resetLaneEffect lane s) := by
  unfold resetLaneEffect
  dsimp only
  split
  · exact (s.clearAwaiting_moves _).trans (State.updLane_moves _ ..)
  · exact s.updLane_moves ..

theorem laneCmdBadEffect_moves (lane : Fin 16) (hdr : Header) (words : List DataWord) (s : State) :
    Moves s (laneCmdBadEffect lane hdr words s) := by
  unfold laneCmdBadEffect
  split
  · exact s.recordRefusal_moves ..
  · exact .refl s

theorem timerEffect_moves (lane : Fin 16) (s : State) : Moves s (timerEffect lane s) := by
  unfold timerEffect
  split
  · rename_i a _ _
    have h : Moves s (s.clearAwaiting a.number).linkMiss :=
      (s.clearAwaiting_moves _).trans (State.linkMiss_moves _)
    dsimp only
    split
    · exact h.trans (State.updLane_moves _ ..)
    · exact h.trans (State.laneOutcome_moves _ ..)
  · exact .refl s

/-! ### Takes -/

theorem State.noteStoreFull_moves (s : State) (r : RefuseReason) : Moves s (s.noteStoreFull r) := by
  unfold State.noteStoreFull
  split
  · exact s.post_moves _ _ rfl
  · exact .refl s

theorem State.takeChecks_ok {s : State} {slots entries : Nat} {d : Bool} {c : Fin 8} {a charge : Nat}
    (h : s.takeChecks slots entries d c a = .ok charge) :
    slots ≤ s.store.freeSlots ∧ entries ≤ s.store.freeEntries := by
  unfold State.takeChecks at h
  repeat' split at h
  all_goals first | omega | cases h

theorem State.claim_moves (s : State) (e : Entry) (hs : s.store.slotsUsed + e.slots ≤ Config.ringSlots)
    (hn : 1 ≤ s.store.freeEntries) : Moves s (s.claim e) := by
  simp only [Store.freeEntries, Store.entriesUsed] at hn
  refine .trans (.one (.allocate s e (by omega) hs)) ?_
  exact .trans (State.keys_moves _ _ (KeyTable.countUse_under _)) (State.evalHigh_moves _)

/-- Room for slots is room in the ring (R66). -/
theorem Store.room {st : Store} {n m : Nat} (h : n + m ≤ st.freeSlots) (hm : 0 < m) :
    st.slotsUsed + n ≤ Config.ringSlots := by
  simp only [Store.freeSlots] at h; omega

theorem acceptWrap_moves (lane : Fin 16) (r : WrapRequest) (w : WrapKey) (charge : Nat) (s : State)
    (hs : s.store.slotsUsed + r.slots ≤ Config.ringSlots) (hn : 1 ≤ s.store.freeEntries) :
    Moves s (acceptWrap lane r w charge s) := by
  unfold acceptWrap
  exact (s.claim_moves _ hs hn).trans
    (.trans (State.updLane_moves _ ..) (.trans (.one (.engine _ _)) (State.afterUse_moves _)))

theorem wrapTake_moves (lane : Fin 16) (s : State) : Moves s (wrapTake lane s) := by
  unfold wrapTake
  split
  · split
    · exact (s.noteStoreFull_moves _).trans (State.laneOutcome_moves _ ..)
    · rename_i h _
      have := State.takeChecks_ok h
      exact acceptWrap_moves _ _ _ _ s (Store.room this.1 (by decide)) (Nat.le_trans (by decide) this.2)
    · exact .refl s
  · exact .refl s

theorem State.afterB_moves (s : State) (pos : Nat) : Moves s (s.afterB pos) := .one (.engine s _)

theorem acceptAdvise_moves (lane : Fin 16) (a : AdviceRequest) (w : WrapKey) (charge : Nat) (s : State)
    (hs : s.store.slotsUsed + 2 ≤ Config.ringSlots) (hn : 1 ≤ s.store.freeEntries) :
    Moves s (acceptAdvise lane a w charge s) := by
  unfold acceptAdvise
  exact (s.claim_moves _ hs hn).trans
    (.trans (State.updLane_moves _ ..) (.trans (.one (.engine _ _)) (State.afterUse_moves _)))

theorem adviseTake_moves (lane : Fin 16) (s : State) : Moves s (adviseTake lane s) := by
  unfold adviseTake
  split
  · split
    · exact (s.noteStoreFull_moves _).trans (State.laneOutcome_moves _ ..)
    · rename_i h _
      have := State.takeChecks_ok h
      exact acceptAdvise_moves _ _ _ _ s (by simp only [Store.freeSlots] at this; omega) this.2
    · exact .refl s
  · exact .refl s

theorem acceptRewrap_moves (e : Entry) (prior : Prior) (old new : WrapKey) (s : State) :
    Moves s (acceptRewrap e prior old new s) := by
  unfold acceptRewrap
  exact .step (.entry s _ _ fun _ => Entry.gentle_state rfl rfl)
    (.trans (State.keys_moves _ _ (KeyTable.countUse_under _))
      (.step (.engine _ _) (.trans (State.campaignLook_moves _) (State.afterUse_moves _))))

theorem rewrapTake_moves (target : Nat) (s : State) : Moves s (rewrapTake target s) := by
  have h : Moves s ((s.updKeys fun k => { k with campaign := none }).updEngine fun e => { e with share := 0 }) :=
    (s.keys_moves _ (.of_eq rfl rfl)).trans (.one (.engine _ _))
  unfold rewrapTake
  dsimp only
  repeat' split
  · exact h.trans (acceptRewrap_moves _ _ _ _ _)
  · exact h.trans (State.campaignLook_moves _)
  · exact h.trans (State.campaignLook_moves _)

theorem closeTake_moves (w : WrapKey) (s : State) (hs : 7 ≤ s.store.freeSlots) (hn : 1 ≤ s.store.freeEntries) :
    Moves s (closeTake w s) := by
  unfold closeTake
  exact (s.claim_moves _ (by simp only [Store.freeSlots, summaryEntry] at hs ⊢; omega) hn).trans
    (.step (.engine _ _) (.step (.batch _ _) (.step (.intake _ _) (State.afterUse_moves _))))

theorem openTake_moves (record : List Byte) (rest : List (List Byte)) (s : State) :
    Moves s (openTake record rest s) := by
  unfold openTake
  exact .step (.intake _ _) (.step (.engine _ _) (State.resumePort_moves _ .up))

/-- A due CLOSE is eligible (R62). -/
theorem State.due_close {s : State} (h : s.due = some .close) : s.closeEligible = true := by
  have hb : ∀ pos, s.choiceAtB pos = .close → pos = 16 := by
    intro pos hp; unfold State.choiceAtB at hp; split at hp
    · assumption
    · split at hp <;> cases hp
  unfold State.due State.choose at h
  repeat' split at h
  all_goals first | cases h | skip
  simp only [Option.map_eq_some_iff] at h
  obtain ⟨pos, hpos, hc⟩ := h
  have h16 := hb pos hc
  subst h16
  have := List.find?_some hpos
  simpa [State.pendingB] using this

/-! ### Completions -/

theorem Store.commit_moves (s : State) (n : Nat) (bytes : List Byte) (batch length : Nat) (awaiting : Bool) :
    Moves s (s.updStore fun st => st.commit n bytes batch length awaiting) := by
  cases h : findEntry n s.store.directory with
  | none =>
    have : (s.updStore fun st => st.commit n bytes batch length awaiting) = s := by
      simp [State.updStore, Store.commit, h]
    rw [this]; exact .refl s
  | some e =>
    have : (s.updStore fun st => st.commit n bytes batch length awaiting) =
        (s.updStore fun st => st.updEntry n fun x => x.complete batch length awaiting).updStore fun st =>
          { st with ring := Memory.writeRun st.ring (Config.slotBytes * e.firstSlot) bytes } := by
      simp [State.updStore, Store.commit, h, Store.updEntry]
    rw [this]
    refine .lastMove (.ring _ _ _) (.one (.entry s _ _ fun _ => ⟨rfl, rfl, ?_, ?_⟩)) <;>
      simp [Entry.complete, EntryState.out, EntryState.isOffered]

theorem completeWrap_moves (j : WrapJob) (s : State) : Moves s (completeWrap j s) := by
  unfold completeWrap
  dsimp only
  refine .last (State.campaignLook_moves _) (.lastMove (.engine _ _) ?_)
  have h : ∀ t : State, Moves s t → Moves s (t.post .up .offerReady) := fun t ht =>
    .last (State.post_moves _ _ _ rfl) ht
  have own : ∀ (b : Bool) (t : State) (f : Lane → Lane), Moves s t →
      Moves s (if b then t.laneOutcome j.lane f else t.clearOrphan j.lane) := by
    intro b t f ht
    split
    · exact .last (State.laneOutcome_moves _ ..) ht
    · exact .last (State.updLane_moves _ ..) ht
  split
  · exact .last (State.post_moves _ _ _ rfl) (h _ (own _ _ _ (.lastMove (.batch _ _) (Store.commit_moves s _ _ _ _ _))))
  · exact h _ (own _ _ _ (.lastMove (.batch _ _) (Store.commit_moves s _ _ _ _ _)))

theorem completeAdvise_moves (j : AdviseJob) (s : State) : Moves s (completeAdvise j s) := by
  unfold completeAdvise
  dsimp only
  refine .last (State.campaignLook_moves _) (.lastMove (.engine _ _) (.last (State.post_moves _ _ _ rfl) ?_))
  split
  · exact .last (State.laneOutcome_moves _ ..) (Store.commit_moves s _ _ _ _ _)
  · exact .last (State.updLane_moves _ ..) (Store.commit_moves s _ _ _ _ _)

theorem completeClose_moves (j : CloseJob) (s : State) : Moves s (completeClose j s) := by
  unfold completeClose
  exact .last (State.campaignLook_moves _) (.lastMove (.engine _ _) (.last (State.post_moves _ _ _ rfl)
    (.last (State.post_moves _ _ _ rfl) (Store.commit_moves s _ _ _ _ _))))

theorem Prior.state_gentle (p : Prior) : p.state.out = false ∧ p.state.isOffered = false := by cases p <;> exact ⟨rfl, rfl⟩

theorem Store.rewrapped_moves (s : State) (j : RewrapJob) : Moves s (s.updStore fun st => st.rewrapped j) := by
  cases h : findEntry j.target s.store.directory with
  | none =>
    have : (s.updStore fun st => st.rewrapped j) = s := by simp [State.updStore, Store.rewrapped, h]
    rw [this]; exact .refl s
  | some e =>
    by_cases hp : ∃ p, e.state = .rewrapping p
    · obtain ⟨p, hp⟩ := hp
      have : (s.updStore fun st => st.rewrapped j) =
          (s.updStore fun st => st.updEntry j.target fun x => { x with state := p.state, epoch := j.epoch }).updStore
            fun st => { st with ring := Memory.writeRun st.ring (Config.slotBytes * e.firstSlot) (j.sealed e) } := by
        simp [State.updStore, Store.rewrapped, h, hp, Store.updEntry]
      rw [this]
      refine .lastMove (.ring _ _ _) (.one (.entry s _ _ fun _ => ⟨rfl, rfl, ?_, ?_⟩)) <;>
        simp [p.state_gentle.1, p.state_gentle.2]
    · have : (s.updStore fun st => st.rewrapped j) = s := by
        have : s.store.rewrapped j = s.store := by
          unfold Store.rewrapped; rw [h]; dsimp only
          split
          · rename_i p hs; exact absurd ⟨p, hs⟩ hp
          · rfl
        simp [State.updStore, this]
      rw [this]; exact .refl s

theorem State.follow_moves (s : State) (f : Follow) : Moves s (s.follow f) := by
  cases f
  · exact s.settleRetiring_moves _
  · exact s.reevaluate_moves _
  · exact s.reevaluate_moves _

theorem State.follows_moves (fs : List Follow) (s : State) : Moves s (fs.foldl State.follow s) := by
  induction fs generalizing s with
  | nil => exact .refl s
  | cons f fs ih => exact (s.follow_moves f).trans (ih _)

theorem completeRewrap_moves (j : RewrapJob) (s : State) : Moves s (completeRewrap j s) := by
  unfold completeRewrap
  exact (Store.rewrapped_moves s j).trans (.step (.engine _ _) (.step (.choice _) (State.follows_moves _ _)))

theorem forgedOutcome_moves (r : List Byte) (s : State) : Moves s (forgedOutcome r s) := by
  unfold forgedOutcome State.testSuspension
  have h : Moves s (((s.updIntake fun i => { i with forged := min 255 (i.forged + 1) }).post .up .forged).lastOutcome
      .forged r) := .lastMove (.intake _ _) (.last (State.post_moves _ _ _ rfl) (.one (.intake _ _)))
  split
  · exact .last (State.post_moves _ _ _ rfl) (.lastMove (.intake _ _) h)
  · exact h

theorem openingOutcome_moves (j : OpenJob) (s : State) : Moves s (openingOutcome j s) := by
  unfold openingOutcome validOutcome lateOutcome
  repeat' split
  · exact .one (.intake _ _)
  · exact .one (.intake _ _)
  · exact forgedOutcome_moves _ s
  · exact .lastMove (.intake _ _) (.last (State.linkSign_moves _) (.last (State.clearAwaiting_moves _ _)
      (s.laneOutcome_moves ..)))
  · exact .lastMove (.intake _ _) (.last (State.linkSign_moves _) (.last (State.post_moves _ _ _ rfl)
      (.one (.intake _ _))))

/-! ### Store commands -/

theorem findEntry_number {n : Nat} {d : List Entry} {e : Entry} (h : findEntry n d = some e) : e.number = n := by
  have := List.find?_some h; simpa using this

theorem confirmEntry_moves (e : Entry) (s : State) (h : findEntry e.number s.store.directory = some e) :
    Moves s (confirmEntry e s) := by
  unfold confirmEntry
  exact .step (.confirm s e h) (.step (.reservation _ _) ((State.settleRetiring_moves _ _).trans (State.reclaim_moves _)))

theorem ackSpillList_moves (n : Nat) (index : Word) (hdr : Header) (s : State) :
    Moves s (ackSpillList n index hdr s) := by
  unfold ackSpillList
  split
  · exact .one (.ackSpill s n _ (by assumption))
  · exact s.recordRefusal_moves ..

theorem ackEffect_moves (index : Word) (hdr : Header) (n : Nat) (s : State) : Moves s (ackEffect index hdr n s) := by
  unfold ackEffect
  refine .trans ?_ (State.linkSign_moves _)
  split
  · rename_i e h
    repeat' split
    · exact confirmEntry_moves e s (by rw [findEntry_number h]; exact h)
    · exact s.recordRefusal_moves ..
    · exact ackSpillList_moves ..
  · exact ackSpillList_moves ..

theorem returnEntry_moves (e : Entry) (s : State) : Moves s (returnEntry e s) := by
  have h : Moves s (s.updStore fun st => st.updEntry e.number fun x => x.returned s.cfg.attemptLimit) :=
    .one (.entry s _ _ fun x => ⟨rfl, rfl, by simp only [Entry.returned]; split <;> simp [EntryState.out],
      by simp only [Entry.returned]; split <;> simp [EntryState.isOffered]⟩)
  unfold returnEntry
  dsimp only
  split
  · exact h.trans ((State.post_moves _ _ _ rfl).trans (State.campaignLook_moves _))
  · exact h.trans ((State.post_moves _ _ _ rfl).trans (State.campaignLook_moves _))

theorem nakEffect_moves (index : Word) (hdr : Header) (n : Nat) (s : State) : Moves s (nakEffect index hdr n s) := by
  unfold nakEffect
  repeat' split
  · exact returnEntry_moves ..
  · exact s.recordRefusal_moves ..
  · exact s.recordRefusal_moves ..

theorem unparkEffect_moves (index : Word) (hdr : Header) (n : Nat) (s : State) :
    Moves s (unparkEffect index hdr n s) := by
  unfold unparkEffect
  repeat' split
  · refine .last (State.post_moves _ _ _ rfl) (.one (.entry s _ _ fun _ => ⟨rfl, rfl, ?_, ?_⟩)) <;>
      simp [EntryState.out, EntryState.isOffered]
  · exact s.recordRefusal_moves ..
  · exact s.recordRefusal_moves ..

theorem confirmBadEffect_moves (index : Word) (hdr : Header) (words : List DataWord) (s : State) :
    Moves s (confirmBadEffect index hdr words s) := by
  unfold confirmBadEffect
  split
  · exact s.recordRefusal_moves ..
  · exact .refl s

theorem offerTimerEffect_moves (n : Nat) (s : State) : Moves s (offerTimerEffect n s) := by
  unfold offerTimerEffect
  repeat' split
  · exact returnEntry_moves ..
  · exact .refl s
  · exact .refl s

theorem refuseSpill_moves (index : Word) (hdr : Header) (n : Nat) (s : State) :
    Moves s (refuseSpill index hdr n s) := by
  unfold refuseSpill
  repeat' split
  · exact .step (.reservation s fun _ => none) (State.recordRefusal_moves _ ..)
  · exact s.recordRefusal_moves ..
  · exact s.recordRefusal_moves ..

theorem spillEntry_moves (e : Entry) (s : State) (h : findEntry e.number s.store.directory = some e) :
    Moves s (spillEntry e s) := by
  unfold spillEntry
  exact .step (.spillOut s e h) ((State.settleRetiring_moves _ _).trans (State.reclaim_moves _))

theorem spillDoneEffect_moves (index : Word) (hdr : Header) (n : Nat) (s : State) :
    Moves s (spillDoneEffect index hdr n s) := by
  unfold spillDoneEffect
  split
  · split
    · rename_i e h
      split
      · exact spillEntry_moves e s (by rw [findEntry_number h]; exact h)
      · exact .one (.reservation s fun _ => none)
    · exact .one (.reservation s fun _ => none)
  · exact refuseSpill_moves ..

theorem spillCancelEffect_moves (index : Word) (hdr : Header) (n : Nat) (s : State) :
    Moves s (spillCancelEffect index hdr n s) := by
  unfold spillCancelEffect
  split
  · refine .last (State.campaignLook_moves _) (.last (State.post_moves _ _ _ rfl) (.lastMove (.entry _ _ _ fun x =>
      ⟨rfl, rfl, ?_, ?_⟩) (.one (.reservation s fun _ => none))))
    · dsimp only; split <;> simp [EntryState.out]
    · dsimp only; split <;> simp [EntryState.isOffered]
  · exact refuseSpill_moves ..

theorem spillBadEffect_moves (index : Word) (hdr : Header) (words : List DataWord) (s : State) :
    Moves s (spillBadEffect index hdr words s) := by
  unfold spillBadEffect
  repeat' split
  · exact s.recordRefusal_moves ..
  · exact .refl s
  · exact refuseSpill_moves ..

/-! ### Intake, shop and control items -/

theorem intakeEffect_moves (index : Word) (hdr : Header) (words : List DataWord) (s : State) :
    Moves s (intakeEffect index hdr words s) := by
  unfold intakeEffect
  repeat' split
  · exact s.recordRefusal_moves ..
  · exact s.recordRefusal_moves ..
  · exact .one (.intake s _)

theorem closeEffect_moves (index : Word) (hdr : Header) (s : State) : Moves s (closeEffect index hdr s) := by
  unfold closeEffect
  split
  · exact s.recordRefusal_moves ..
  · exact .one (.batch s _)

theorem rollEffect_moves (index : Word) (hdr : Header) (s : State) : Moves s (rollEffect index hdr s) := by
  unfold rollEffect
  repeat' split
  · exact s.recordRefusal_moves ..
  · exact s.recordRefusal_moves ..
  · rename_i h _; exact s.roll_moves true (by simpa using h)

theorem shopBadEffect_moves (index : Word) (hdr : Header) (words : List DataWord) (s : State) :
    Moves s (shopBadEffect index hdr words s) := by
  unfold shopBadEffect
  split
  · exact s.recordRefusal_moves ..
  · exact .refl s

theorem controlEffect_moves (p : PortId) (t : Target) (index : Word) (hdr : Header) (need : Nat)
    (words : List DataWord) (f : State → State) (h : ∀ s, Moves s (f s)) (s : State) :
    Moves s (controlEffect p t index hdr need words f s) := by
  unfold controlEffect
  split
  · exact s.recordRefusal_moves ..
  · exact h s

theorem clamp_bounds {lo hi n : Nat} (h : lo ≤ hi) : lo ≤ clamp lo hi n ∧ clamp lo hi n ≤ hi := by
  unfold clamp; omega

theorem storedMarks_inRange (a b c d : Nat) {cfg : Settings} (h : cfg.InRange) : (storedMarks a b c d cfg).InRange := by
  obtain ⟨h1, -, -, h2⟩ := h
  have := @clamp_bounds 1 4095 a (by decide)
  have := @clamp_bounds 1 4095 b (by decide)
  have := @clamp_bounds 1 511 c (by decide)
  have := @clamp_bounds 1 511 d (by decide)
  refine ⟨h1, ?_, ?_, h2⟩ <;> simp only [storedMarks] <;> omega

theorem storedConfig_inRange (item : ConfigItem) (ws : List Word) {cfg : Settings} (h : cfg.InRange) :
    (storedConfig item ws cfg).InRange := by
  obtain ⟨h1, h2, h3, h4, h5, h6, h7, h8, h9, h10, h11, h12⟩ := h
  unfold storedConfig
  split
  · exact ⟨clamp_bounds (by decide), h2, h3, h4, h5, h6, h7, h8, h9, h10, h11, h12⟩
  · exact ⟨h1, h2, h3, clamp_bounds (by decide), h5, h6, h7, h8, h9, h10, h11, h12⟩
  · exact ⟨h1, h2, h3, h4, clamp_bounds (by decide), h6, h7, h8, h9, h10, h11, h12⟩
  · exact ⟨h1, h2, h3, h4, h5, Nat.min_le_left _ _, h7, h8, h9, h10, h11, h12⟩
  · rename_i c hi lo w _
    refine ⟨h1, h2, h3, h4, h5, h6, fun i => ?_, h8, h9, h10, h11, h12⟩
    by_cases hc : c = i
    · subst hc
      simp only [Fin.getElem_fin, Vector.getElem_set_self]
      exact ⟨Nat.min_le_left _ _, by omega⟩
    · have hne : c.val ≠ i.val := fun h => hc (Fin.ext h)
      simpa only [Fin.getElem_fin, Vector.getElem_set_ne _ _ hne] using h7 i
  · exact ⟨h1, h2, h3, h4, h5, h6, h7, clamp_bounds (by decide), h9, h10, h11, h12⟩
  · exact ⟨h1, h2, h3, h4, h5, h6, h7, h8, clamp_bounds (by decide), h10, h11, h12⟩
  · exact ⟨h1, h2, h3, h4, h5, h6, h7, h8, h9, Nat.min_le_left _ _, h11, h12⟩
  · exact ⟨h1, h2, h3, h4, h5, h6, h7, h8, h9, h10, clamp_bounds (by decide), h12⟩
  · exact ⟨h1, h2, h3, h4, h5, h6, h7, h8, h9, h10, h11, clamp_bounds (by decide)⟩
  · exact ⟨h1, h2, h3, h4, h5, h6, h7, h8, h9, h10, h11, h12⟩

theorem watermarksEffect_moves (words : List DataWord) (s : State) : Moves s (watermarksEffect words s) := by
  have h := Move.cfg s _ fun h => storedMarks_inRange (wordAt words 0) (wordAt words 1) (wordAt words 2) (wordAt words 3) h
  unfold watermarksEffect
  dsimp only
  split
  · exact .step h (State.evalHigh_moves _)
  · exact .step h (State.evalLow_moves _)

theorem useLimitEffect_moves (limit : Nat) (s : State) : Moves s (useLimitEffect limit s) := by
  have h : Moves s (s.updKeys fun k => { k with useLimit := storedLimit limit }).testWear :=
    (s.keys_moves _ (.of_eq rfl rfl)).trans (State.testWear_moves _)
  unfold useLimitEffect
  dsimp only
  repeat' split
  · exact h
  · exact h.trans (State.onSpent_moves _)
  · exact h.trans (State.keys_moves _ _ (.of_eq rfl rfl))
  · exact h

theorem configEffect_moves (item : ConfigItem) (words : List DataWord) (s : State) :
    Moves s (configEffect item words s) := by
  have h := Move.cfg s _ fun h => storedConfig_inRange item (values words) h
  unfold configEffect
  dsimp only
  split
  · exact .step h (.one (.engine _ _))
  · exact .one h

theorem Port.and_sound {a b m : BitVec 32} (h : a &&& m = 0) : a &&& b &&& m = 0 := by
  rw [BitVec.and_assoc, BitVec.and_comm b m, ← BitVec.and_assoc, h]; exact BitVec.zero_and

theorem Port.clearEvents_moves (s : State) (p : PortId) (bits : BitVec 32) :
    Moves s (s.updPort p fun q => q.clearEvents bits) :=
  .one (.port s p _ fun h => ⟨Port.and_sound h.1, h.2⟩)

theorem Port.setMask_moves (s : State) (p : PortId) (bits : BitVec 32) :
    Moves s (s.updPort p fun q => q.setMask p bits) := by
  refine .one (.port s p _ fun h => ⟨h.1, ?_, h.2.2⟩)
  show bits &&& portEvents p &&& ~~~portEvents p = 0
  rw [BitVec.and_assoc]; cases p <;> exact BitVec.and_zero

theorem Port.clearStatus_moves (s : State) (p : PortId) : Moves s (s.updPort p Port.clearStatus) :=
  .one (.port s p _ fun h => ⟨h.1, h.2.1, Nat.zero_le _, h.2.2.2⟩)

theorem refuseHeader_moves (p : PortId) (dir : Direction) (t : Target) (index : Word) (hdr : Header) (count : Nat)
    (reason : Reason) (s : State) : Moves s (refuseHeader p dir t index hdr count reason s) := by
  unfold refuseHeader
  dsimp only
  split
  · exact (s.recordRefusal_moves ..).trans ((State.answerWith_moves _ ..).trans (State.noteBurst_moves _ ..))
  · exact (s.recordRefusal_moves ..).trans ((State.endAnswer_moves _ _).trans (State.noteBurst_moves _ ..))

/-! ### The key line -/

theorem State.reply_moves (s : State) (c : Byte) (st : KeyStatus) (d : List Byte) : Moves s (s.reply c st d) :=
  .one (.keyLine s _)

theorem loadTransport_moves (key : Key) (check : CheckValue) (s : State) : Moves s (loadTransport key check s) := by
  unfold loadTransport
  repeat' split
  · exact s.reply_moves ..
  · exact s.reply_moves ..
  · exact (s.keys_moves _ (.of_eq rfl rfl)).trans (State.reply_moves _ ..)

theorem KeyTable.loadNext_ordered {k : KeyTable} {w : WrapKey} (hw : w.role = .next) (hn : k.find .next = none)
    (he : k.highest < w.epoch) (h : k.Ordered) :
    ({ k with slots := loadLowest w k.slots, highest := w.epoch } : KeyTable).Ordered := by
  have old : ∀ i : Fin 3, ∀ v, k.slots[i] = some v → v.role ≠ .next ∧ v.epoch < w.epoch := fun i v hv =>
    ⟨KeyTable.find_eq_none hn hv, Nat.lt_of_le_of_lt (h i v hv).1 he⟩
  have cases : ∀ i : Fin 3, ∀ v, (loadLowest w k.slots)[i] = some v →
      k.slots[i] = some v ∨ (v = w ∧ ∀ j : Fin 3, j ≠ i → (loadLowest w k.slots)[j] = k.slots[j]) := by
    intro i v hv
    unfold loadLowest at hv ⊢
    have key : ∀ (n : Nat) (hn : n < 3), (k.slots.set n (some w))[i] = some v →
        k.slots[i] = some v ∨ (v = w ∧ ∀ j : Fin 3, j ≠ i → (k.slots.set n (some w))[j] = k.slots[j]) := by
      intro n hn h
      by_cases hi : n = i.val
      · right
        simp only [Fin.getElem_fin, Vector.getElem_set, hi, if_true, Option.some.injEq] at h
        exact ⟨h.symm, fun j hj => by
          have : n ≠ j.val := fun e => hj (Fin.ext (by omega))
          simp only [Fin.getElem_fin, Vector.getElem_set, this, if_false]⟩
      · left; simpa only [Fin.getElem_fin, Vector.getElem_set, hi, if_false] using h
    split at hv
    · rw [if_pos (by assumption)]; exact key 0 (by decide) hv
    · rw [if_neg (by assumption)]
      split at hv
      · rw [if_pos (by assumption)]; exact key 1 (by decide) hv
      · rw [if_neg (by assumption)]
        split at hv
        · rw [if_pos (by assumption)]; exact key 2 (by decide) hv
        · exact .inl hv
  intro i v hv
  rcases cases i v hv with hv' | ⟨rfl, hothers⟩
  · refine ⟨Nat.le_of_lt (old i v hv').2, fun j hij u hu => ?_⟩
    rcases cases j u hu with hu' | ⟨rfl, -⟩
    · exact (h i v hv').2 j hij u hu'
    · exact ⟨hw ▸ (old i v hv').1, fun _ => (old i v hv').2⟩
  · refine ⟨Nat.le_refl _, fun j hij u hu => ?_⟩
    have hu' : k.slots[j] = some u := by rw [← hothers j (Ne.symm hij)]; exact hu
    refine ⟨hw ▸ (Ne.symm (old j u hu').1), fun hr => ?_⟩
    rw [hw] at hr
    cases hru : u.role <;> rw [hru] at hr <;> simp [Role.rank] at hr

theorem loadNext_moves (key : Key) (epoch : Nat) (check : CheckValue) (s : State) (hn : s.keys.find .next = none)
    (he : s.keys.highest < epoch) : Moves s (loadNext key epoch check s) := by
  have h : Moves s (s.updKeys fun k =>
      { k with slots := loadLowest ⟨.next, key, epoch, 0, check, false⟩ k.slots, highest := epoch }) :=
    .one (.keys s _ fun h => KeyTable.loadNext_ordered rfl hn he h)
  unfold loadNext
  dsimp only
  split
  · exact h.trans (State.onSpent_moves _)
  · exact h

theorem loadKey_moves (role : Byte) (epoch : BitVec 16) (enciphered : BitVec 128) (check : CheckValue) (s : State) :
    Moves s (loadKey role epoch enciphered check s) := by
  unfold loadKey
  split
  · exact s.reply_moves ..
  · exact s.reply_moves ..
  · split
    · exact s.reply_moves ..
    · rename_i hb
      split
      · exact s.reply_moves ..
      · rename_i he
        dsimp only
        split
        · exact s.reply_moves ..
        · split
          · refine (loadNext_moves _ _ _ s ?_ ?_).trans (State.reply_moves _ ..)
            · simpa using hb
            · have := not_or.mp he; simp only [true_and, Nat.not_le] at this; exact this.2
          · exact (s.keys_moves _ (.of_eq rfl rfl)).trans (State.reply_moves _ ..)

theorem discardNext_moves (s : State) : Moves s (discardNext s) := by
  unfold discardNext
  split
  · exact s.reply_moves ..
  · refine .trans ?_ (State.reply_moves _ ..)
    have h : Moves s (s.updKeys fun k => { k.updRole .next (fun _ => none) with pendingRoll := false }) :=
      s.keys_moves _ (s.keys.erase_under .next)
    unfold dropNext
    dsimp only
    split
    · exact h.trans (State.postBoth_moves _ _ rfl rfl)
    · exact h

theorem setShop_moves (identity : BitVec 32) (s : State) : Moves s (setShop identity s) := by
  unfold setShop
  split
  · exact (s.keys_moves _ (.of_eq rfl rfl)).trans (State.reply_moves _ ..)
  · exact s.reply_moves ..

theorem query_moves (selector index : Byte) (s : State) : Moves s (query selector index s) := by
  unfold query
  split <;> exact s.reply_moves ..

theorem executeFrame_moves (command : Byte) (payload : List Byte) (s : State) :
    Moves s (executeFrame command payload s) := by
  unfold executeFrame
  split
  · exact s.reply_moves ..
  · split
    · exact s.reply_moves ..
    · unfold runCommand
      split
      · exact loadTransport_moves ..
      · exact loadKey_moves ..
      · exact discardNext_moves s
      · exact .step (.policy s _) (State.reply_moves _ ..)
      · exact setShop_moves ..
      · exact query_moves ..
      · exact .refl s

theorem State.receive_moves (s : State) (b : Byte) : Moves s (s.receive b) := by
  unfold State.receive
  split
  · split
    · exact .one (.keyLine s _)
    · exact .refl s
  · unfold afterByte
    split
    · split
      · exact s.reply_moves ..
      · split
        · unfold endFrame
          split
          · exact .step (.keyLine s _) (executeFrame_moves ..)
          · exact s.reply_moves ..
        · exact .one (.keyLine s _)
    · exact .one (.keyLine s _)
  · exact .refl s

theorem State.receiveAll_moves (s : State) (bs : List Byte) : Moves s (s.receiveAll bs) := by
  induction bs generalizing s with
  | nil => exact .refl s
  | cons b bs ih => exact (s.receive_moves b).trans (ih _)

theorem frameArrives_moves (c : Byte) (payload : List Byte) (s : State) : Moves s (frameArrives c payload s) :=
  whenRunning_moves s _ fun s => s.receiveAll_moves _

theorem State.discardPartial_moves (s : State) : Moves s s.discardPartial := by
  unfold State.discardPartial
  split
  · exact .one (.keyLine s _)
  · exact .refl s

/-! ### Tamper, resets and power -/

theorem State.removeClaim_moves (s : State) (n : Nat) : Moves s (s.removeClaim n) := by
  unfold State.removeClaim
  split
  · rename_i e h
    refine .step (.removeTail s e ?_) (State.evalLow_moves _)
    simp only [claimedEntry, Option.filter_eq_some_iff] at h
    exact h.1
  · exact .refl s

theorem State.undoClaim_moves (s : State) (n epoch : Nat) : Moves s (s.undoClaim n epoch) :=
  (s.setBackUse_moves epoch).trans ((State.removeClaim_moves _ n).trans (State.settleRetiring_moves _ _))

theorem State.undoJob_moves (s : State) (j : Job) : Moves s (s.undoJob j) := by
  unfold State.undoJob State.undoLaneClaim
  cases j with
  | wrap j => exact .last (State.updLane_moves _ ..) (s.undoClaim_moves _ _)
  | advise j => exact .last (State.updLane_moves _ ..) (s.undoClaim_moves _ _)
  | close j => exact .lastMove (.batch _ _) (s.undoClaim_moves _ _)
  | rewrap j =>
    refine .last (State.campaignLook_moves _) (.last (State.setBackUse_moves _ _) (.one (.entry s _ _ fun x => ?_)))
    unfold Entry.unrewrapped
    split
    · exact ⟨rfl, rfl, by simp [(Prior.state_gentle _).1], by simp [(Prior.state_gentle _).2]⟩
    · exact ⟨rfl, rfl, id, id⟩
  | opening j => exact .refl s

theorem State.abandonJob_moves (s : State) : Moves s s.abandonJob := by
  unfold State.abandonJob
  split
  · exact (s.undoJob_moves _).trans (.one (.engine _ _))
  · exact .refl s

theorem Entry.restarted_gentle (e : Entry) : Entry.Gentle e e.restarted := by
  refine ⟨rfl, rfl, ?_, ?_⟩ <;> simp only [Entry.restarted] <;> cases e.state <;>
    simp [EntryState.restarted, EntryState.out, EntryState.isOffered]

theorem State.halt_moves (s : State) : Moves s s.halt :=
  s.abandonJob_moves.trans ((State.endTransactions_moves _).trans (.one (.keyLine _ _)))

theorem Port.restarted_sound {q : Port} {p : PortId} (h : q.Sound p) : q.restarted.Sound p :=
  ⟨by show Event.restarted.bit &&& ~~~portEvents p = 0; cases p <;> decide, h.2.1, Nat.zero_le _, h.2.2.2⟩

theorem Store.restarted_moves (s : State) : Moves s (s.updStore fun st => st.restarted s.cfg) :=
  .lastMove (.armed _ (bothLow (s.store.mapEntries Entry.restarted) s.cfg))
    (.one (.entries s Entry.restarted Entry.restarted_gentle))

theorem State.restart_moves (s : State) (h : s.resetInput = false) : Moves s s.restart := by
  unfold State.restart State.campaignAnew
  dsimp only
  refine .lastMove (.run _ _ (by simp [h])) (.lastMove (.port _ .up _ Port.restarted_sound) (.lastMove (.port _ .lp _
    Port.restarted_sound) (.last (State.campaignLook_moves _) (.last (State.keys_moves _ _ (.of_eq rfl rfl)) ?_))))
  refine .lastMove (.link _ ⟨.doubt, 0, 0⟩ fun _ _ => by simp [Link.Consistent])
    (.lastMove (.reservation _ fun _ => none) ?_)
  refine .last (Store.restarted_moves _) ?_
  exact .lastMove (.batch _ _) (.lastMove (.intake _ _) (.lastMove (.engine _ _) (.one (.lanes s _))))

theorem execResetAssertion_moves (s : State) :
    Moves s ((whenRunning s fun s => s.halt.setRun .inReset).setResetInput true) := by
  refine .lastMove (.resetInput _ true fun _ => ?_)
    (whenRunning_moves s _ fun s => s.halt_moves.trans (.one (.run _ _ (by simp))))
  unfold whenRunning
  split
  · simp
  · assumption

theorem State.leaveReset_moves (s : State) (h : s.resetInput = false) : Moves s s.leaveReset := by
  unfold State.leaveReset
  split
  · exact s.restart_moves h
  · exact .one (.run s _ (by simp [h]))
  · exact .refl s

theorem State.warmPowerUp_moves (s : State) : Moves s s.warmPowerUp := by
  have h : Moves s (s.abandonJob.setKeyLine .hunt) := s.abandonJob_moves.trans (.one (.keyLine _ _))
  unfold State.warmPowerUp
  dsimp only
  split
  · exact .lastMove (.run _ _ (by simp)) h
  · rename_i hr
    exact .last (State.restart_moves _ (by simpa using hr)) h

theorem execTamper_moves (s : State) :
    Moves s (((((s.updKeys KeyTable.zeroised).abandonJob).endTransactions.clearAtTamper).setKeyLine .hunt).postBoth
      .tamper) := by
  refine .last (State.postBoth_moves _ _ rfl rfl) (.lastMove (.keyLine _ _) ?_)
  unfold State.clearAtTamper
  refine .lastMove (.engine _ _) (.lastMove (.intake _ _) (.lastMove (.entries _ Entry.unawaited fun _ =>
    ⟨rfl, rfl, id, id⟩) (.lastMove (.lanes _ _) ?_)))
  refine .last (State.endTransactions_moves _) (.last (State.abandonJob_moves _) (s.keys_moves _ ⟨Nat.le_refl _, ?_⟩))
  intro i v h
  simp [KeyTable.zeroised] at h

/-! ### The lemma for every command -/

/-- Every command answers a next state, which a run of basic moves reaches. -/
theorem exec_moves (c : Instr) (s : State) : ∃ t, exec c s = .next t ∧ Moves s t := by
  cases c with
  | laneBufWrite st l h ws => exact ⟨_, rfl, s.portWrite_moves _ _ _ _ fun s => laneBufEffect_moves ..⟩
  | wrap st l h ws => exact ⟨_, rfl, s.portWrite_moves _ _ _ _ fun s => wrapEffect_moves ..⟩
  | abandon st l h ws => exact ⟨_, rfl, s.portWrite_moves _ _ _ _ fun s => abandonEffect_moves ..⟩
  | resetLane st l h ws => exact ⟨_, rfl, s.portWrite_moves _ _ _ _ fun s => resetLaneEffect_moves ..⟩
  | laneCmdBadCommand st l h ws => exact ⟨_, rfl, s.portWrite_moves _ _ _ _ fun s => laneCmdBadEffect_moves ..⟩
  | laneCmdRead l h => exact ⟨_, rfl, s.portRead_moves ..⟩
  | laneRspRead l h => exact ⟨_, rfl, s.portRead_moves ..⟩
  | onlineTimerExpiry l => exact ⟨_, rfl, whenRunning_moves s _ fun s => timerEffect_moves ..⟩
  | takeWrap =>
    refine ⟨_, rfl, whenRunning_moves s _ fun s => ?_⟩
    split
    · exact .step (.engine _ _) (wrapTake_moves ..)
    · exact (s.afterB_moves _).trans (wrapTake_moves ..)
    · exact .refl s
  | takeAdvise =>
    refine ⟨_, rfl, whenRunning_moves s _ fun s => ?_⟩
    split
    · exact (s.afterB_moves _).trans (adviseTake_moves ..)
    · exact .refl s
  | takeRewrap =>
    refine ⟨_, rfl, whenRunning_moves s _ fun s => ?_⟩
    split
    · exact rewrapTake_moves ..
    · exact .refl s
  | takeClose =>
    refine ⟨_, rfl, whenRunning_moves s _ fun s => ?_⟩
    split
    · rename_i h _
      have := State.due_close h
      simp only [State.closeEligible, Bool.and_eq_true, decide_eq_true_eq] at this
      exact (s.afterB_moves _).trans (closeTake_moves _ _ this.1.1.2 this.1.2)
    · exact .refl s
  | takeOpen =>
    refine ⟨_, rfl, whenRunning_moves s _ fun s => ?_⟩
    split
    · exact openTake_moves ..
    · exact .refl s
  | wrapCompletion =>
    refine ⟨_, rfl, whenRunning_moves s _ fun s => ?_⟩
    split
    · exact completeWrap_moves ..
    · exact .refl s
  | adviseCompletion =>
    refine ⟨_, rfl, whenRunning_moves s _ fun s => ?_⟩
    split
    · exact completeAdvise_moves ..
    · exact .refl s
  | closeCompletion =>
    refine ⟨_, rfl, whenRunning_moves s _ fun s => ?_⟩
    split
    · exact completeClose_moves ..
    · exact .refl s
  | rewrapCompletion =>
    refine ⟨_, rfl, whenRunning_moves s _ fun s => ?_⟩
    split
    · exact completeRewrap_moves ..
    · exact .refl s
  | openCompletion =>
    refine ⟨_, rfl, whenRunning_moves s _ fun s => ?_⟩
    split
    · exact .step (.engine _ _) (openingOutcome_moves ..)
    · exact .refl s
  | offer i h => exact ⟨_, rfl, s.portRead_moves ..⟩
  | ringRead p i h n => exact ⟨_, rfl, s.portRead_moves ..⟩
  | ack st i h n ws => exact ⟨_, rfl, s.portWrite_moves _ _ _ _ fun s => ackEffect_moves ..⟩
  | nak st i h n ws => exact ⟨_, rfl, s.portWrite_moves _ _ _ _ fun s => nakEffect_moves ..⟩
  | unpark st i h n ws => exact ⟨_, rfl, s.portWrite_moves _ _ _ _ fun s => unparkEffect_moves ..⟩
  | confirmMalformed st i h ws => exact ⟨_, rfl, s.portWrite_moves _ _ _ _ fun s => confirmBadEffect_moves ..⟩
  | offerTimerExpiry n => exact ⟨_, rfl, whenRunning_moves s _ fun s => offerTimerEffect_moves ..⟩
  | spill i h => exact ⟨_, rfl, s.portRead_moves ..⟩
  | spillDone st i h n ws => exact ⟨_, rfl, s.portWrite_moves _ _ _ _ fun s => spillDoneEffect_moves ..⟩
  | spillCancel st i h n ws => exact ⟨_, rfl, s.portWrite_moves _ _ _ _ fun s => spillCancelEffect_moves ..⟩
  | spillCommandRefused st i h ws => exact ⟨_, rfl, s.portWrite_moves _ _ _ _ fun s => spillBadEffect_moves ..⟩
  | intakeClaim i b =>
    refine ⟨_, rfl, whenRunning_moves s _ fun s => ?_⟩
    repeat' split
    · exact .refl s
    · exact s.admitIntake_moves _ (by assumption)
    · exact s.setHeld_moves ..
  | intakeWrite ws =>
    refine ⟨_, rfl, whenRunning_moves s _ fun s => ?_⟩
    split
    · rename_i w rest hq
      split
      · refine .last (State.resumePort_moves _ .up) (.last (intakeEffect_moves ..) (.lastMove (.intake _ _)
          (s.setPosted_moves .up rest (.inr ?_))))
        show rest.length ≤ s.up.posted.length
        simp [hq]
      · exact .refl s
    · exact .refl s
  | close st i h ws => exact ⟨_, rfl, s.portWrite_moves _ _ _ _ fun s => closeEffect_moves ..⟩
  | linkDown st i h ws =>
    exact ⟨_, rfl, s.portWrite_moves _ _ _ _ fun s => s.moveLink_moves _ fun _ _ => by simp [Link.Consistent]⟩
  | linkUp st i h ws =>
    exact ⟨_, rfl, s.portWrite_moves _ _ _ _ fun s => s.moveLink_moves _ fun _ _ => by simp [Link.Consistent]⟩
  | roll st i h ws => exact ⟨_, rfl, s.portWrite_moves _ _ _ _ fun s => rollEffect_moves ..⟩
  | resume st i h ws => exact ⟨_, rfl, s.portWrite_moves _ _ _ _ fun s => .one (.intake s _)⟩
  | shopCmdMalformed st i h ws => exact ⟨_, rfl, s.portWrite_moves _ _ _ _ fun s => shopBadEffect_moves ..⟩
  | watermarksWrite st i h ws =>
    exact ⟨_, rfl, s.portWrite_moves _ _ _ _ (controlEffect_moves _ _ _ _ _ _ _ (watermarksEffect_moves _))⟩
  | useLimitWrite st i h ws =>
    exact ⟨_, rfl, s.portWrite_moves _ _ _ _ (controlEffect_moves _ _ _ _ _ _ _ (useLimitEffect_moves _))⟩
  | eventStatusClear st p h ws =>
    exact ⟨_, rfl, s.portWrite_moves _ _ _ _
      (controlEffect_moves _ _ _ _ _ _ _ fun s => Port.clearEvents_moves s p _)⟩
  | eventMaskWrite st p h ws =>
    exact ⟨_, rfl, s.portWrite_moves _ _ _ _ (controlEffect_moves _ _ _ _ _ _ _ fun s => Port.setMask_moves s p _)⟩
  | writeStatusClear st p h ws =>
    exact ⟨_, rfl, s.portWrite_moves _ _ _ _ fun s => Port.clearStatus_moves s p⟩
  | configWrite st item i h ws =>
    exact ⟨_, rfl, s.portWrite_moves _ _ _ _ (controlEffect_moves _ _ _ _ _ _ _ (configEffect_moves item _))⟩
  | headerRefusal p d c code i h n =>
    refine ⟨_, rfl, ?_⟩
    split
    · refine whenRunning_moves s _ fun s => ?_
      split
      · exact .refl s
      · exact refuseHeader_moves ..
    · split
      · exact s.portRead_moves ..
      · exact .refl s
  | holdLimitExpiry p n => exact ⟨_, rfl, whenRunning_moves s _ fun s => s.expireHold_moves p n⟩
  | loadTransport k c => exact ⟨_, rfl, frameArrives_moves ..⟩
  | loadKey r e k c => exact ⟨_, rfl, frameArrives_moves ..⟩
  | discardNext => exact ⟨_, rfl, frameArrives_moves ..⟩
  | setPolicy es => exact ⟨_, rfl, frameArrives_moves ..⟩
  | setShop i => exact ⟨_, rfl, frameArrives_moves ..⟩
  | query a b => exact ⟨_, rfl, frameArrives_moves ..⟩
  | badFrame bs => exact ⟨_, rfl, whenRunning_moves s _ fun s => s.receiveAll_moves bs⟩
  | keyLineGap => exact ⟨_, rfl, whenRunning_moves s _ State.discardPartial_moves⟩
  | keyLineByteFault => exact ⟨_, rfl, whenRunning_moves s _ fun s => s.discardPartial_moves⟩
  | keyLineReplyEnd =>
    refine ⟨_, rfl, whenRunning_moves s _ fun s => ?_⟩
    split
    · exact .one (.keyLine s _)
    · exact .refl s
  | tamper => exact ⟨_, rfl, execTamper_moves s⟩
  | resetAssertion => exact ⟨_, rfl, execResetAssertion_moves s⟩
  | resetRelease =>
    exact ⟨_, rfl, .step (.resetInput s false (by simp)) (State.leaveReset_moves _ rfl)⟩
  | powerLoss b =>
    exact ⟨_, rfl, (whenRunning_moves s _ State.endTransactions_moves).trans
      (.step (.run _ _ (by simp)) (.one (.marker _ _)))⟩
  | powerUp =>
    refine ⟨_, rfl, ?_⟩
    repeat' split
    · exact s.warmPowerUp_moves
    · exact .one (.cold s)
    · exact .refl s
  | syncByte => exact ⟨_, rfl, whenRunning_moves s _ fun s => s.receive_moves _⟩
  | readBurstTruncation p =>
    refine ⟨_, rfl, whenRunning_moves s _ fun s => ?_⟩
    split
    · exact s.noteBurst_moves ..
    · exact .refl s

end Sys2Proof.Machine
end

