-- ==== Sys2Proof/Laws/Directory.lean ====
section
/-! SUPPORT. The directory and the spill list under a change of one entry, and a descriptor's words (R82, R93, R116). -/

namespace Sys2Proof.Machine

/-! ### The directory under a change of one entry -/

/-- A sum over the directory that the change keeps for each entry is kept. -/
theorem updEntry_sum (n : Nat) (f : Entry → Entry) (g : Entry → Nat) (h : ∀ x, g (f x) = g x) (d : List Entry) :
    ((updEntry n f d).map g).sum = (d.map g).sum := by
  induction d with
  | nil => rfl
  | cons e es ih => unfold updEntry; split <;> simp [h, ih]

/-- The number of entries is kept. -/
@[simp] theorem updEntry_length (n : Nat) (f : Entry → Entry) (d : List Entry) : (updEntry n f d).length = d.length := by
  induction d with
  | nil => rfl
  | cons e es ih => unfold updEntry; split <;> simp [ih]

/-- An entry after the change is an old one, or the changed one. -/
theorem updEntry_mem {n : Nat} {f : Entry → Entry} {d : List Entry} {x : Entry} (h : x ∈ updEntry n f d) :
    x ∈ d ∨ ∃ y ∈ d, x = f y := by
  induction d with
  | nil => simp [updEntry] at h
  | cons e es ih =>
    unfold updEntry at h
    split at h
    · simp only [List.mem_cons] at h ⊢
      rcases h with rfl | h
      · exact .inr ⟨e, .inl rfl, rfl⟩
      · exact .inl (.inr h)
    · simp only [List.mem_cons] at h ⊢
      rcases h with rfl | h
      · exact .inl (.inl rfl)
      · rcases ih h with h | ⟨y, hy, rfl⟩
        · exact .inl (.inr h)
        · exact .inr ⟨y, .inr hy, rfl⟩

/-- A sum over the directory changes by what the found entry changes by. -/
theorem updEntry_found {n : Nat} {f : Entry → Entry} {d : List Entry} {e : Entry} (h : findEntry n d = some e)
    (g : Entry → Nat) :
    ((updEntry n f d).map g).sum + g e = (d.map g).sum + g (f e) := by
  induction d with
  | nil => simp [findEntry] at h
  | cons x es ih =>
    unfold updEntry
    simp only [findEntry, List.find?_cons] at h
    split at h
    · rename_i hx
      cases h
      rw [if_pos (by simpa using hx)]
      simp; omega
    · rename_i hx
      rw [if_neg (by simpa using hx)]
      have := ih h
      simp at *; omega

/-- A count that no change adds to does not rise. -/
theorem updEntry_count (n : Nat) (f : Entry → Entry) (q : Entry → Bool) (h : ∀ x, q (f x) = true → q x = true)
    (d : List Entry) :
    (updEntry n f d).countP q ≤ d.countP q := by
  induction d with
  | nil => simp [updEntry]
  | cons e es ih =>
    unfold updEntry
    split
    · simp only [List.countP_cons]
      by_cases hq : q (f e) = true
      · simp [hq, h e hq]
      · simp [hq]
    · simp only [List.countP_cons]; omega

/-- Any count rises by at most one. -/
theorem updEntry_count_succ (n : Nat) (f : Entry → Entry) (q : Entry → Bool) (d : List Entry) :
    (updEntry n f d).countP q ≤ d.countP q + 1 := by
  induction d with
  | nil => simp [updEntry]
  | cons e es ih =>
    unfold updEntry
    split
    · simp only [List.countP_cons]; split <;> split <;> omega
    · simp only [List.countP_cons]; omega

/-- The change of an entry that stands behind others of other numbers. -/
theorem updEntry_split {n : Nat} {f : Entry → Entry} {older younger : List Entry} {e : Entry}
    (h : ∀ x ∈ older, x.number ≠ n) (he : e.number = n) :
    updEntry n f (older ++ e :: younger) = older ++ f e :: younger := by
  induction older with
  | nil => simp [updEntry, he]
  | cons x xs ih =>
    simp only [List.cons_append, updEntry]
    rw [if_neg (h x (by simp)), ih fun y hy => h y (by simp [hy])]

/-- The changed entry is found under its number, if the change keeps numbers. -/
theorem findEntry_updEntry {n : Nat} {f : Entry → Entry} (hf : ∀ x, (f x).number = x.number) {d : List Entry}
    {e : Entry} (h : findEntry n d = some e) : findEntry n (updEntry n f d) = some (f e) := by
  induction d with
  | nil => simp [findEntry] at h
  | cons x es ih =>
    simp only [findEntry, List.find?_cons] at h
    by_cases hx : x.number = n
    · simp only [hx, beq_self_eq_true, Option.some.injEq] at h
      subst h
      simp [updEntry, findEntry, hx, hf]
    · rw [show (x.number == n) = false by simpa using hx] at h
      simpa [updEntry, findEntry, hx] using ih h

/-! ### The spill list -/

/-- An item that is appended or merged adds its charge (R113). -/
theorem addSpill_sum (x : SpillItem) (l : List SpillItem) :
    spillCharges (addSpill x l) = spillCharges l + x.charge := by
  induction l with
  | nil => simp [addSpill, spillCharges]
  | cons y ys ih =>
    unfold addSpill
    split
    · simp [spillCharges]; omega
    · simp [spillCharges] at *; omega

/-- A removed item takes its charge away (R97). -/
theorem removeSpill_sum {n : Nat} {x : SpillItem} {l : List SpillItem} (h : findSpill n l = some x) :
    spillCharges (removeSpill n l) + x.charge = spillCharges l := by
  induction l with
  | nil => simp [findSpill] at h
  | cons y ys ih =>
    unfold removeSpill
    simp only [findSpill, List.find?_cons] at h
    split at h
    · rename_i hx
      cases h
      rw [if_pos (by simpa using hx)]
      simp [spillCharges]; omega
    · rename_i hx
      rw [if_neg (by simpa using hx)]
      have := ih h
      simp [spillCharges] at *; omega

/-! ### Descriptors -/

/-- The words of a descriptor (R93, 12.3). -/
theorem wordsOf_descriptorBytes (e : Entry) : wordsOf (descriptorBytes e) = descriptorWords e := by
  have pair : ∀ a b : Nat, wordOf (BitVec.ofNat 8 a) (BitVec.ofNat 8 b) = BitVec.ofNat 8 a ++ BitVec.ofNat 8 b :=
    fun _ _ => rfl
  have word : ∀ n : Nat, BitVec.ofNat 8 (n / 256) ++ BitVec.ofNat 8 n = BitVec.ofNat 16 n := by
    intro n
    apply BitVec.eq_of_toNat_eq
    simp only [BitVec.toNat_append, BitVec.toNat_ofNat]
    rw [← Nat.shiftLeft_add_eq_or_of_lt (by omega), Nat.shiftLeft_eq]
    omega
  unfold descriptorBytes descriptorWords modeFlags
  simp only [beBytes, List.nil_append, List.cons_append, List.replicate, wordsOf, pair]
  rw [word e.number, word e.firstSlot, word e.length,
    show e.number / 256 / 256 / 256 = e.number / 65536 / 256 by omega,
    show e.number / 256 / 256 = e.number / 65536 by omega, word]
  simp
  exact ⟨rfl, rfl⟩

end Sys2Proof.Machine
end

