-- ==== Sys2Proof/Laws/KeyLine.lean ====
section
/-! SUPPORT. The receiver takes in a whole frame: the one lemma that the key line's commands rest on (R169, R170). -/

namespace Sys2Proof.Machine

@[simp] theorem State.setKeyLine_setKeyLine (s : State) (r r' : Receiver) :
    (s.setKeyLine r).setKeyLine r' = s.setKeyLine r' := rfl

theorem State.setKeyLine_self {s : State} {r : Receiver} (h : s.keyLine = r) : s.setKeyLine r = s := by
  subst h; rfl

@[simp] theorem State.reply_setKeyLine (s : State) (r : Receiver) (c : Byte) (st : KeyStatus) (d : List Byte) :
    (s.setKeyLine r).reply c st d = s.reply c st d := rfl

theorem State.receiveAll_append (s : State) (xs ys : List Byte) :
    s.receiveAll (xs ++ ys) = (s.receiveAll xs).receiveAll ys := by
  simp [State.receiveAll]

theorem State.receiveAll_cons (s : State) (x : Byte) (xs : List Byte) :
    s.receiveAll (x :: xs) = (s.receive x).receiveAll xs := rfl

/-- Within a frame, bytes short of its last are stored (R170). -/
theorem State.receiveAll_stores (c l : Byte) (hl : l.toNat ≤ maxPayload) (bs : List Byte) :
    ∀ (pre : List Byte) (s : State), s.keyLine = .receiving (c :: l :: pre) →
      pre.length + bs.length < 2 + l.toNat →
      s.receiveAll bs = s.setKeyLine (.receiving (c :: l :: (pre ++ bs))) := by
  induction bs with
  | nil => intro pre s h _; simp [State.receiveAll, State.setKeyLine_self h]
  | cons b bs ih =>
    intro pre s h hlen
    simp only [List.length_cons] at hlen
    have hb : s.receive b = s.setKeyLine (.receiving (c :: l :: (pre ++ [b]))) := by
      have h2 : ¬ (c :: l :: (pre ++ [b])).length = 4 + l.toNat := by simp; omega
      simp only [State.receive, h, List.cons_append, afterByte, if_neg (Nat.not_lt.mpr hl), if_neg h2]
    rw [State.receiveAll_cons, hb, ih (pre ++ [b]) _ rfl (by simp; omega)]
    simp

/-- The bytes of a frame after its sync byte are executed as one frame (R169, R170, R192). -/
theorem State.receiveAll_frameTail {s : State} (h : s.keyLine = .receiving []) (c : Byte) {payload : List Byte}
    (hp : payload.length ≤ maxPayload) :
    s.receiveAll (frameTail c payload) = executeFrame c payload (s.setKeyLine .hunt) := by
  have hp' : payload.length ≤ 64 := hp
  obtain ⟨hi, lo, hcrc⟩ : ∃ hi lo, bytesOfWord (crc (c :: BitVec.ofNat 8 payload.length :: payload)) = [hi, lo] :=
    ⟨_, _, rfl⟩
  generalize hl : BitVec.ofNat 8 payload.length = l at hcrc
  have hln : l.toNat = payload.length := by subst hl; simp; omega
  have hlm : l.toNat ≤ maxPayload := by omega
  have h1 : s.receive c = s.setKeyLine (.receiving [c]) := by simp [State.receive, h, afterByte]
  have h2 : (s.setKeyLine (.receiving [c])).receive l = s.setKeyLine (.receiving [c, l]) := by
    have hne : ¬ [c, l].length = 4 + l.toNat := by simp; omega
    simp only [State.receive, State.setKeyLine_keyLine, List.cons_append, List.nil_append, afterByte,
      if_neg (Nat.not_lt.mpr hlm), if_neg hne, State.setKeyLine_setKeyLine]
  have hsplit : frameTail c payload = c :: l :: ((payload ++ [hi]) ++ [lo]) := by
    simp [frameTail, hl, hcrc]
  rw [hsplit, State.receiveAll_cons, h1, State.receiveAll_cons, h2, State.receiveAll_append,
    State.receiveAll_stores c l hlm (payload ++ [hi]) [] _ rfl (by simp; omega)]
  have hend : (c :: l :: (payload ++ [hi] ++ [lo])).length = 4 + l.toNat := by simp; omega
  have htake : (c :: l :: (payload ++ [hi] ++ [lo])).take (2 + l.toNat) = c :: l :: payload := by
    rw [hln, Nat.add_comm]; simp
  have hslice1 : slice (c :: l :: (payload ++ [hi] ++ [lo])) (2 + l.toNat) 2 = [hi, lo] := by
    rw [hln, slice, Nat.add_comm]; simp
  have hslice2 : slice (c :: l :: (payload ++ [hi] ++ [lo])) 2 l.toNat = payload := by
    rw [hln, slice]; simp
  simp only [State.receiveAll, List.foldl_cons, List.foldl_nil, State.receive, State.setKeyLine_keyLine,
    List.nil_append, List.cons_append, afterByte, if_neg (Nat.not_lt.mpr hlm)]
  simp only [List.append_assoc, List.cons_append, List.nil_append] at hend htake hslice1 hslice2 ⊢
  rw [if_pos hend, endFrame, htake, hslice1, hslice2, hcrc, if_pos rfl]
  rfl

/-- A frame that arrives while the receiver is RECEIVING an empty buffer (R104, R170). -/
theorem frameArrives_of_receiving {s : State} (hr : s.run = .running) (h : s.keyLine = .receiving []) (c : Byte)
    {payload : List Byte} (hp : payload.length ≤ maxPayload) :
    frameArrives c payload s = executeFrame c payload (s.setKeyLine .hunt) := by
  simp [frameArrives, whenRunning, hr, State.receiveAll_frameTail h c hp]

end Sys2Proof.Machine
end

