-- ==== Sys2Proof/Laws/Operations.lean ====
section
/-! SUPPORT. What the shared operations of takes, key table and link monitor answer: the take checks, the arbiter's
search, the campaign's look, the settled retiring count, a counted sign, an applied write's state. -/

namespace Sys2Proof.Machine

/-! ### An applied write -/

/-- The state on which an applied write's effect is made differs in its port only (R181). -/
theorem State.Applies.fields {s s' : State} {p : PortId} {w : PostedWrite} (h : s.Applies p w s') :
    s'.lanes = s.lanes ∧ s'.policy = s.policy ∧ s'.link = s.link ∧ s'.store = s.store ∧ s'.spill = s.spill ∧
      s'.cfg = s.cfg ∧ s'.keys = s.keys ∧ s'.batch = s.batch ∧ s'.intake = s.intake ∧ s'.meter = s.meter := by
  obtain ⟨-, -, -, ⟨-, rfl⟩ | ⟨rest, -, rfl⟩⟩ := h <;>
    cases p <;> exact ⟨rfl, rfl, rfl, rfl, rfl, rfl, rfl, rfl, rfl, rfl⟩

/-- The other port is untouched by it. -/
theorem State.Applies.other {s s' : State} {p : PortId} {w : PostedWrite} (h : s.Applies p w s') :
    (p = .lp → s'.up = s.up) ∧ (p = .up → s'.lp = s.lp) := by
  obtain ⟨-, -, -, ⟨-, rfl⟩ | ⟨rest, -, rfl⟩⟩ := h <;>
    cases p <;> simp [State.endAnswer, State.setPosted, State.updPort]

/-! ### Take checks -/

/-- With an ACTIVE key that has uses left the key check passes (R66). -/
theorem State.KeyAndRoom.no_refusal {s : State} {w : WrapKey} {slots entries : Nat}
    (h : s.KeyAndRoom w slots entries) : s.keys.keyRefusal = none := by
  unfold KeyTable.keyRefusal
  rw [h.1]
  simp only [KeyTable.spent]
  have := h.2.1
  simp
  omega

/-- With key and room, and exposure accepted where a decision is asked for, the checks answer the charge (R67). -/
theorem State.takeChecks_accepts {s : State} {w : WrapKey} {slots entries : Nat} {d : Bool} {c : Fin 8}
    {amount charge : Nat} (h : s.KeyAndRoom w slots entries) (h1 : d = true → s.ExposureAccepts c amount charge)
    (h2 : d = false → charge = 0) : s.takeChecks slots entries d c amount = .ok charge := by
  unfold State.takeChecks
  rw [h.no_refusal]
  dsimp only
  rw [if_neg (by have := h.2.2; omega)]
  cases d with
  | true =>
    obtain ⟨a, b, e, f⟩ := h1 rfl
    have hc : chargeFor amount s.cfg.risk[c].weight = charge := by rw [e]; rfl
    simp only [if_true, exposureDecision]
    rw [if_neg (by omega), hc, if_neg (by omega)]
  | false => rw [h2 rfl]; rfl

/-- Refused for a reason, the checks answer that reason (R67). -/
theorem State.takeChecks_refuses {s : State} {slots entries : Nat} {d : Bool} {c : Fin 8} {amount : Nat}
    {x : RefuseReason} (h : s.RefusedFor slots entries (d = true) c amount x) :
    s.takeChecks slots entries d c amount = .error x := by
  unfold State.takeChecks
  cases x with
  | noKey => simp only [State.RefusedFor] at h; simp only [KeyTable.keyRefusal, h]
  | keySpent =>
    obtain ⟨w, h1, h2⟩ := h
    simp only [KeyTable.keyRefusal, h1, KeyTable.spent, decide_eq_true h2, if_true]
  | storeFull =>
    obtain ⟨w, h1, h2, h3⟩ := h
    simp only [KeyTable.keyRefusal, h1, KeyTable.spent, decide_eq_false (Nat.not_le.mpr h2), h3, if_true]
    simp
  | floor =>
    obtain ⟨w, h1, h2, h3⟩ := h
    rw [h1.no_refusal]
    simp only
    rw [if_neg (by have := h1.2.2; omega), if_pos h2]
    simp only [exposureDecision]
    rw [if_pos h3]
  | ceiling =>
    obtain ⟨w, h1, h2, h3, h4, h5⟩ := h
    rw [h1.no_refusal]
    simp only
    rw [if_neg (by have := h1.2.2; omega), if_pos h2]
    simp only [exposureDecision]
    rw [if_neg (by omega), if_pos]
    simpa [chargeFor, ceilDiv] using h5

/-! ### The arbiter -/

/-- The search from a pointer answers the first position that passes (R64). -/
theorem firstFrom_eq_some {n ptr k : Nat} {test : Nat → Bool} (hk : k < n) (ht : test ((ptr + k) % n) = true)
    (hj : ∀ j, j < k → test ((ptr + j) % n) = false) : firstFrom n ptr test = some ((ptr + k) % n) := by
  unfold firstFrom
  rw [List.find?_eq_some_iff_getElem]
  exact ⟨ht, k, by simpa using hk, by simp, fun j hj' => by simpa using hj j hj'⟩

/-- It answers none if none passes. -/
theorem firstFrom_eq_none {n ptr : Nat} {test : Nat → Bool} (h : ∀ k, k < n → test ((ptr + k) % n) = false) :
    firstFrom n ptr test = none := by
  unfold firstFrom
  rw [List.find?_eq_none]
  simp only [List.mem_map, List.mem_range]
  rintro x ⟨k, hk, rfl⟩
  rw [h k hk]
  simp

/-- A position and its remainder are the same lane. -/
@[simp] theorem laneOf_mod (a : Nat) : laneOf (a % 16) = laneOf a := by
  unfold laneOf
  simp

/-! ### Key table, link monitor, lanes -/

/-- The campaign's look changes the campaign request only (R167). -/
theorem State.campaignLook_eq (s : State) :
    s.campaignLook = { s with keys := { s.keys with campaign := s.campaignLook.keys.campaign } } := by
  unfold State.campaignLook
  split <;> rfl

/-- A roll changes the key table and the uplink's events only (R165). -/
theorem State.roll_eq (s : State) (announce : Bool) :
    ∃ k v, s.roll announce = { s with keys := k, up := { s.up with events := v } } := by
  have look : ∀ x : State, ∃ k, x.campaignLook = { x with keys := k } := fun x => by
    rw [State.campaignLook_eq]; exact ⟨_, rfl⟩
  unfold State.roll
  split
  · exact ⟨_, _, rfl⟩
  · dsimp only
    split
    · cases announce <;> exact ⟨_, _, rfl⟩
    · obtain ⟨k, hk⟩ := look (s.updKeys fun k => { k.rollRoles with
        retiring := custodyCount (‹WrapKey›).epoch s.store.directory })
      rw [hk]
      exact ⟨_, _, rfl⟩

/-- So does the settling of the retiring count (R166). -/
theorem State.settleRetiring_eq (s : State) (announce : Bool) :
    ∃ k v, s.settleRetiring announce = { s with keys := k, up := { s.up with events := v } } := by
  have erase : ∀ x : State, ∃ k v, x.eraseRetiring announce = { x with keys := k, up := { x.up with events := v } } :=
    fun x => by cases announce <;> exact ⟨_, _, rfl⟩
  unfold State.settleRetiring
  split
  · exact ⟨_, _, rfl⟩
  · dsimp only
    split
    · obtain ⟨k, v, hk⟩ := erase (s.updKeys fun k => { k with
        retiring := custodyCount (‹WrapKey›).epoch s.store.directory })
      rw [hk]
      split
      · obtain ⟨k', v', hk'⟩ := State.roll_eq _ announce
        rw [hk']
        exact ⟨_, _, rfl⟩
      · exact ⟨_, _, rfl⟩
    · exact ⟨_, _, rfl⟩

/-- A counted sign changes the link monitor, and posts LINK if the link state changes (R133, R136). -/
theorem State.linkSign_eq (s : State) :
    s.linkSign = { s with
      link := s.link.sign s.cfg.recoverThreshold
      up := { s.up with
        events :=
          if (s.link.sign s.cfg.recoverThreshold).state = s.link.state then s.up.events
          else s.up.events ||| Event.link.bit } } := by
  unfold State.linkSign State.moveLink
  split <;> rfl

/-- A counted miss, likewise (R132, R136). -/
theorem State.linkMiss_eq (s : State) :
    s.linkMiss = { s with
      link := s.link.miss s.cfg.missThreshold
      up := { s.up with
        events :=
          if (s.link.miss s.cfg.missThreshold).state = s.link.state then s.up.events
          else s.up.events ||| Event.link.bit } } := by
  unfold State.linkMiss State.moveLink
  split <;> rfl

/-- A lane owns a completion of its generation unless it is orphaned (R15). -/
theorem Lane.owns_iff (l : Lane) (g : Nat) : l.owns g = decide (l.generation = g ∧ l.orphan = false) := by
  unfold Lane.owns
  cases l.orphan <;> simp

/-- A changed lane, read back. -/
@[simp] theorem State.updLane_lane (s : State) (l : Fin 16) (f : Lane → Lane) :
    (s.updLane l f).lanes[l] = f s.lanes[l] := by
  simp [State.updLane, State.updLanes]

/-- Two changes of a lane that agree on it give one state. -/
theorem State.updLane_congr {s : State} {l : Fin 16} {f g : Lane → Lane} (h : f s.lanes[l] = g s.lanes[l]) :
    s.updLane l f = s.updLane l g := by
  unfold State.updLane State.updLanes
  dsimp only
  rw [h]

end Sys2Proof.Machine
end

