-- ==== Sys2Proof/Laws/KeyTable.lean ====
section
/-! SUPPORT. What the key table's operations make: a roll, an erase, a settled retiring count, a counted use with the
wear and the spending that follow it (10.3 to 10.5). -/

namespace Sys2Proof.Machine

/-- The roles of a roll, as R165 lists them. -/
theorem KeyTable.rollRoles_eq (k : KeyTable) : k.rollRoles = k.turned := by
  simp only [KeyTable.rollRoles, KeyTable.mapKeys, KeyTable.turned]
  congr 2
  funext o
  cases o with
  | none => rfl
  | some w => cases h : w.role <;> simp [h]

/-- After a roll the key that was ACTIVE is RETIRING (R165). -/
theorem KeyTable.turned_retiring {k : KeyTable} (h : k.find .retiring = none) :
    k.turned.find .retiring = k.active.map fun w => { w with role := .retiring } := by
  simp only [KeyTable.active, KeyTable.find, KeyTable.turned, Vector.toList_map] at *
  generalize k.slots.toList = l at *
  induction l with
  | nil => rfl
  | cons o os ih =>
    rcases o with _ | ⟨r, _, _, _, _, _⟩
    · exact ih h
    · cases r
      · exact ih h
      · rfl
      · cases h

/-- After an erase no key is RETIRING (R166). -/
theorem KeyTable.erased_retiring (k : KeyTable) : k.erased.find .retiring = none := by
  simp only [KeyTable.find, KeyTable.erased, Vector.toList_map]
  generalize k.slots.toList = l
  induction l with
  | nil => rfl
  | cons o os ih =>
    rcases o with _ | ⟨r, _, _, _, _, _⟩
    · exact ih
    · cases r <;> exact ih

/-- The erase of the RETIRING key (R166). -/
theorem State.eraseRetiring_eq (s : State) (announce : Bool) :
    s.eraseRetiring announce = { s with
      keys := s.keys.erased
      up := { s.up with events := if announce then s.up.events ||| Event.retired.bit else s.up.events } } := by
  have : s.keys.updRole .retiring (fun _ => none) = { s.keys with
      slots := s.keys.slots.map fun o => o.filter fun v => decide (v.role ≠ .retiring) } := by
    unfold KeyTable.updRole KeyTable.mapKeys
    congr 2
    funext o
    cases o with
    | none => rfl
    | some w => by_cases h : w.role = .retiring <;> simp [h, Option.filter]
  simp only [State.eraseRetiring, State.updKeys, this]
  cases announce <;> rfl

/-- The campaign's look leaves its request and changes nothing else (R167). -/
theorem State.campaignLook_lookedOver (s : State) :
    s.campaignLook = { s with keys := { s.keys with campaign := s.keys.lookedOver s.store.directory } } := by
  have h : s.campaignLook.keys.campaign = s.keys.lookedOver s.store.directory := by
    unfold State.campaignLook KeyTable.lookedOver
    cases s.keys.find .retiring <;> cases h : s.keys.campaign <;> first | exact h | rfl
  rw [← h]
  exact s.campaignLook_eq

/-- What a roll makes, without a RETIRING key before it (R165). -/
theorem State.roll_rolled {s : State} (h : s.keys.find .retiring = none) (announce : Bool) :
    s.keys.Rolled (s.roll announce).keys s.store.directory ∧
      s.roll announce = { s with
        keys := (s.roll announce).keys
        up := { s.up with
          events :=
            if announce = true ∧ ∃ w, s.keys.active = some w ∧ custodyCount w.epoch s.store.directory = 0 then
              s.up.events ||| Event.retired.bit
            else s.up.events } } := by
  have hret := KeyTable.turned_retiring h
  unfold State.roll KeyTable.Rolled
  cases ha : s.keys.active with
  | none => exact ⟨⟨fun _ => KeyTable.rollRoles_eq _, fun w hw => by cases hw⟩, by simp [State.updKeys]⟩
  | some w =>
    rw [ha] at hret
    dsimp only
    simp only [KeyTable.rollRoles_eq]
    split
    · rename_i hn
      rw [State.eraseRetiring_eq]
      refine ⟨⟨fun h => (by cases h), fun v hv => ?_⟩, by cases announce <;> simp [State.updKeys, hn]⟩
      cases hv
      exact ⟨fun _ => rfl, fun h => by omega⟩
    · rename_i hn
      refine ⟨⟨fun h => (by cases h), fun v hv => ?_⟩, by rw [State.campaignLook_eq]; simp [State.updKeys, hn]⟩
      cases hv
      refine ⟨fun h => absurd h hn, fun _ => ?_⟩
      rw [State.campaignLook_lookedOver, KeyTable.lookedOver]
      have : (s.updKeys fun k => { k.turned with
          retiring := custodyCount w.epoch s.store.directory }).keys.find .retiring =
            some { w with role := .retiring } := hret
      rw [this]
      cases h : s.keys.campaign <;> simp [State.updKeys, KeyTable.turned, h]

/-- What the settling of the retiring count makes (R166). -/
theorem State.settleRetiring_resettled (s : State) (announce : Bool) :
    s.keys.Resettled (s.settleRetiring announce).keys s.store.directory ∧
      (s.keys.Retires s.store.directory → s.settleRetiring announce = { s with
        keys := (s.settleRetiring announce).keys
        up := { s.up with events := if announce then s.up.events ||| Event.retired.bit else s.up.events } }) ∧
      (¬ s.keys.Retires s.store.directory →
        s.settleRetiring announce = { s with keys := (s.settleRetiring announce).keys }) := by
  unfold KeyTable.Resettled KeyTable.Retires
  cases hr : s.keys.find .retiring with
  | none =>
    have h0 : s.settleRetiring announce = s := by unfold State.settleRetiring; rw [hr]
    rw [h0]
    exact ⟨⟨fun _ => rfl, nofun⟩, fun ⟨_, hw, _⟩ => (nomatch hw), fun _ => rfl⟩
  | some w =>
    by_cases hn : custodyCount w.epoch s.store.directory = 0
    · have h0 : s.settleRetiring announce =
          if s.keys.pendingRoll then ({ s with
            keys := s.keys.erased
            up := { s.up with events := if announce then s.up.events ||| Event.retired.bit else s.up.events } } :
              State).roll announce
          else { s with
            keys := s.keys.erased
            up := { s.up with events := if announce then s.up.events ||| Event.retired.bit else s.up.events } } := by
        unfold State.settleRetiring
        rw [hr]
        simp only [hn, if_true, State.eraseRetiring_eq]
        rfl
      have he := State.roll_rolled (s := { s with
        keys := s.keys.erased
        up := { s.up with events := if announce then s.up.events ||| Event.retired.bit else s.up.events } })
        (KeyTable.erased_retiring s.keys) announce
      rw [h0]
      refine ⟨⟨nofun, fun v hv => ?_⟩, fun _ => ?_, fun h => absurd ⟨w, rfl, hn⟩ h⟩
      · cases hv
        exact ⟨fun h => by omega, fun _ => ⟨fun hp => by simp [hp], fun hp => by simpa [hp] using he.1⟩⟩
      · split
        · refine he.2.trans ?_
          cases announce <;> simp [BitVec.or_assoc]
        · rfl
    · have h0 : s.settleRetiring announce =
          { s with keys := { s.keys with retiring := custodyCount w.epoch s.store.directory } } := by
        unfold State.settleRetiring
        rw [hr]
        simp only [hn, if_false]
        rfl
      rw [h0]
      refine ⟨⟨nofun, fun v hv => ?_⟩, fun ⟨v, hv, h⟩ => ?_, fun _ => rfl⟩ <;> cases hv
      · exact ⟨fun _ => rfl, fun h => absurd h hn⟩
      · exact absurd h hn

/-- The ACTIVE key once its use is counted and its wear tested (R162, R163). -/
theorem KeyTable.counted_find (k : KeyTable) (w : WrapKey) (r : Role) :
    (k.counted w).find r = if r = .active then
        (k.find .active).map fun v => { v with
          uses := v.uses + 1, wear := v.wear || (decide (k.useLimit - k.useLimit / 16 ≤ w.uses + 1) && !w.wear) }
      else k.find r := by
  simp only [KeyTable.find, KeyTable.counted, Vector.toList_map]
  generalize k.slots.toList = l
  induction l with
  | nil => split <;> rfl
  | cons o os ih =>
    rcases o with _ | ⟨q, _, _, _, _, _⟩
    · exact ih
    · cases q <;> cases r <;> first | exact ih | rfl

/-- A counted use without the wear test (R162). -/
theorem KeyTable.countUse_eq (k : KeyTable) : k.countUse = { k with
    slots := k.slots.map fun o => o.map fun v => if v.role = .active then { v with uses := v.uses + 1 } else v } := by
  unfold KeyTable.countUse KeyTable.updRole KeyTable.mapKeys
  congr 2
  funext o
  rcases o with _ | ⟨q, _, _, _, _, _⟩
  · rfl
  · cases q <;> rfl

/-- A counted use and, where the wear flag is due, its setting (R162, R163). -/
theorem KeyTable.countUse_wear (k : KeyTable) (w : WrapKey) :
    (if decide (k.useLimit - k.useLimit / 16 ≤ w.uses + 1) && !w.wear then
        k.countUse.updRole .active fun v => some { v with wear := true }
      else k.countUse) = k.counted w := by
  rw [KeyTable.countUse_eq]
  cases h : decide (k.useLimit - k.useLimit / 16 ≤ w.uses + 1) && !w.wear <;>
    simp only [KeyTable.counted, KeyTable.updRole, KeyTable.mapKeys, h, Vector.map_map, if_true, Bool.false_eq_true,
      if_false] <;> congr 2 <;> funext o <;> rcases o with _ | ⟨q, _, _, _, _, _⟩ <;> (try rfl) <;> cases q <;>
    simp

/-- What a counted use makes of the state, with the wear and the spending that follow it (R162 to R164). -/
theorem State.afterUse_counted {s : State} {w : WrapKey} (h : s.keys.active = some w) :
    let t := (s.updKeys KeyTable.countUse).afterUse
    let worn := decide (s.keys.useLimit - s.keys.useLimit / 16 ≤ w.uses + 1) && !w.wear
    let spent := decide (s.keys.useLimit ≤ w.uses + 1)
    let alone := (s.keys.find .next).isNone
    let erased := spent && !alone && (s.keys.find .retiring).isNone &&
      decide (custodyCount w.epoch s.store.directory = 0)
    let bit := fun (b : Bool) (e : Event) => if b then e.bit else 0
    s.keys.AfterUse t.keys w s.store.directory ∧
      t = { s with
        keys := t.keys
        lp := { s.lp with events := s.lp.events ||| bit (spent && alone) .keySpent }
        up := { s.up with
          events := s.up.events ||| bit worn .keyWear ||| bit (spent && alone) .keySpent ||| bit erased .retired } } := by
  intro t worn spent alone erased bit
  let u : State := { s with
    keys := s.keys.counted w, up := { s.up with events := s.up.events ||| bit worn .keyWear } }
  have ha : (s.keys.counted w).active = some { w with uses := w.uses + 1, wear := w.wear || worn } := by
    have := s.keys.counted_find w .active
    rw [if_pos rfl, show s.keys.find .active = some w from h] at this
    exact this
  have hcount : s.keys.countUse.active = some { w with uses := w.uses + 1 } := by
    rw [KeyTable.countUse_eq]
    simp only [KeyTable.active, KeyTable.find, Vector.toList_map] at h ⊢
    revert h
    generalize s.keys.slots.toList = l
    induction l with
    | nil => exact nofun
    | cons o os ih =>
      rcases o with _ | ⟨q, _, _, _, _, _⟩
      · exact ih
      · cases q
        · exact ih
        · intro h; cases h; rfl
        · exact ih
  have h1 : (s.updKeys KeyTable.countUse).testWear = u := by
    unfold State.testWear
    rw [show (s.updKeys KeyTable.countUse).keys.active = _ from hcount]
    dsimp only
    have hk := s.keys.countUse_wear w
    by_cases hw : wearPoint s.keys.useLimit ≤ w.uses + 1 ∧ w.wear = false
    · have hx : worn = true := by simp only [worn, hw.2]; simpa [wearPoint] using hw.1
      rw [if_pos (by simpa [State.updKeys, KeyTable.countUse, KeyTable.updRole, KeyTable.mapKeys] using hw)]
      rw [if_pos hx] at hk
      simp only [u, hx, bit, ← hk]
      rfl
    · have hx : worn = false := Bool.eq_false_iff.mpr fun hc => hw (by simpa [worn, wearPoint] using hc)
      rw [if_neg (by simpa [State.updKeys, KeyTable.countUse, KeyTable.updRole, KeyTable.mapKeys] using hw)]
      rw [if_neg (by simpa [worn] using hx)] at hk
      simp only [u, hx, bit, ← hk]
      simp [State.updKeys]
  have h2 : u.keys.activeSpent = spent := by
    unfold KeyTable.activeSpent
    rw [show u.keys.active = _ from ha]
    rfl
  have hn : ∀ r, r ≠ .active → u.keys.find r = s.keys.find r := fun r hr => by
    have := s.keys.counted_find w r
    rwa [if_neg hr] at this
  have h3 : t = if spent then u.onSpent else u := by simp only [t, State.afterUse, h1, h2]
  rw [h3]
  have hlim : spent = decide (s.keys.useLimit ≤ w.uses + 1) := rfl
  unfold KeyTable.AfterUse
  by_cases hs : s.keys.useLimit ≤ w.uses + 1
  · have hsp : spent = true := by simpa [spent] using hs
    rw [if_pos hsp]
    unfold State.onSpent
    rw [hn .next (by decide), hn .retiring (by decide)]
    cases hx : s.keys.find .next with
    | none =>
      refine ⟨⟨fun _ => rfl, fun _ h => absurd rfl h⟩, ?_⟩
      simp [State.postBoth, State.post, State.updPort, u, bit, hsp, alone, erased, hx]
    | some v =>
      cases hy : s.keys.find .retiring with
      | some x =>
        refine ⟨⟨fun h => by simp at h; omega, fun _ _ => ⟨fun _ => rfl, nofun⟩⟩, ?_⟩
        simp [State.updKeys, u, bit, alone, erased, hx, hy]
      | none =>
        have he := State.roll_rolled (s := u) ((hn .retiring (by decide)).trans hy) true
        refine ⟨⟨fun h => by simp at h; omega, fun _ _ => ⟨fun h => absurd rfl h, fun _ => he.1⟩⟩, ?_⟩
        refine he.2.trans ?_
        simp [u, bit, alone, erased, hx, hy, hsp, ha]
        split <;> simp
  · have hsp : spent = false := by simpa [spent] using hs
    rw [hsp, if_neg (by decide)]
    refine ⟨⟨fun _ => rfl, fun h => absurd h hs⟩, ?_⟩
    simp [u, bit, erased, hsp]
end Sys2Proof.Machine
end

