-- ==== Sys2Proof/Laws/Memory.lean ====
section
/-! SUPPORT. The ring's memory: a byte written is read back, every other byte is left alone, and the canonical form is
kept (R81). -/

namespace Sys2Proof.Machine

/-- A canonical memory from a bound on holds nothing below the bound. -/
theorem Memory.read_below {lo : Nat} {m : List Host.Cell} (h : Memory.wfFrom lo m = true) {a : Nat} (ha : a < lo) :
    Memory.read m a = Memory.blank := by
  induction m generalizing lo with
  | nil => rfl
  | cons c m ih =>
    obtain ⟨b, v⟩ := c
    simp only [Memory.wfFrom, Bool.and_eq_true, decide_eq_true_eq] at h
    obtain ⟨⟨⟨h1, -⟩, -⟩, h4⟩ := h
    rw [Memory.read, if_neg (by omega)]
    exact ih h4 (by omega)

/-- A byte written in a canonical memory is read back, and every other byte is unchanged (R81). -/
theorem Memory.read_write {lo : Nat} {m : List Host.Cell} (h : Memory.wfFrom lo m = true) (a : Nat) (v : Byte)
    (b : Nat) : Memory.read (Memory.write m a v) b = if b = a then v else Memory.read m b := by
  induction m generalizing lo with
  | nil =>
    unfold Memory.write
    by_cases hv : v = Memory.blank
    · rw [if_pos hv]; split
      · exact hv.symm
      · rfl
    · rw [if_neg hv]; simp only [Memory.read, eq_comm (a := a)]
  | cons c m ih =>
    obtain ⟨x, w⟩ := c
    simp only [Memory.wfFrom, Bool.and_eq_true, decide_eq_true_eq] at h
    obtain ⟨⟨⟨h1, -⟩, -⟩, h4⟩ := h
    unfold Memory.write
    by_cases hxa : x < a
    · rw [if_pos hxa, Memory.read, Memory.read, ih h4]
      by_cases hxb : x = b
      · rw [if_pos hxb, if_pos hxb, if_neg (by omega)]
      · rw [if_neg hxb, if_neg hxb]
    · rw [if_neg hxa]
      by_cases hxe : x = a
      · subst hxe
        rw [if_pos rfl]
        by_cases hv : v = Memory.blank
        · rw [if_pos hv]
          by_cases hb : b = x
          · rw [if_pos hb, hv]; subst hb; exact Memory.read_below h4 (by omega)
          · rw [if_neg hb, Memory.read, if_neg (Ne.symm hb)]
        · rw [if_neg hv, Memory.read, Memory.read]
          by_cases hb : b = x
          · rw [if_pos hb.symm, if_pos hb]
          · rw [if_neg (Ne.symm hb), if_neg hb, if_neg (Ne.symm hb)]
      · rw [if_neg hxe]
        by_cases hv : v = Memory.blank
        · rw [if_pos hv]
          by_cases hb : b = a
          · subst hb
            rw [if_pos rfl, hv, Memory.read, if_neg hxe]; exact Memory.read_below h4 (by omega)
          · rw [if_neg hb]
        · rw [if_neg hv, Memory.read]
          simp only [eq_comm (a := a)]

/-- A write inside the ring keeps the canonical form. -/
theorem Memory.wfFrom_write {lo : Nat} {m : List Host.Cell} (h : Memory.wfFrom lo m = true) {a : Nat} (v : Byte)
    (hlo : lo ≤ a) (ha : a < Config.ringBytes) : Memory.wfFrom lo (Memory.write m a v) = true := by
  induction m generalizing lo with
  | nil =>
    unfold Memory.write
    split
    · rfl
    · simp only [Memory.wfFrom, Bool.and_true, Bool.and_eq_true, decide_eq_true_eq]
      exact ⟨⟨hlo, ha⟩, by assumption⟩
  | cons c m ih =>
    obtain ⟨x, w⟩ := c
    have hx := h
    simp only [Memory.wfFrom, Bool.and_eq_true, decide_eq_true_eq] at h
    obtain ⟨⟨⟨h1, h2⟩, h3⟩, h4⟩ := h
    have weaken : ∀ {l l' : Nat} {m : List Host.Cell}, l' ≤ l → Memory.wfFrom l m = true →
        Memory.wfFrom l' m = true := by
      intro l l' m hl hm
      cases m with
      | nil => rfl
      | cons c m =>
        simp only [Memory.wfFrom, Bool.and_eq_true, decide_eq_true_eq] at hm ⊢
        exact ⟨⟨⟨Nat.le_trans hl hm.1.1.1, hm.1.1.2⟩, hm.1.2⟩, hm.2⟩
    unfold Memory.write
    by_cases hxa : x < a
    · rw [if_pos hxa]
      simp only [Memory.wfFrom, Bool.and_eq_true, decide_eq_true_eq]
      exact ⟨⟨⟨h1, h2⟩, h3⟩, ih h4 (by omega)⟩
    · rw [if_neg hxa]
      by_cases hxe : x = a
      · rw [if_pos hxe]
        by_cases hv : v = Memory.blank
        · rw [if_pos hv]; exact weaken (by omega) h4
        · rw [if_neg hv]
          simp only [Memory.wfFrom, Bool.and_eq_true, decide_eq_true_eq]
          exact ⟨⟨⟨hlo, ha⟩, hv⟩, by rw [← hxe]; exact h4⟩
      · rw [if_neg hxe]
        by_cases hv : v = Memory.blank
        · rw [if_pos hv]; exact hx
        · rw [if_neg hv]
          simp only [Memory.wfFrom, Bool.and_eq_true, decide_eq_true_eq]
          exact ⟨⟨⟨hlo, ha⟩, hv⟩, ⟨⟨by omega, h2⟩, h3⟩, h4⟩

theorem Memory.wf_write {m : List Host.Cell} (h : Memory.wf m = true) {a : Nat} (v : Byte)
    (ha : a < Config.ringBytes) : Memory.wf (Memory.write m a v) = true := Memory.wfFrom_write h v (Nat.zero_le _) ha

/-- Bytes written around the ring keep the canonical form (R81). -/
theorem Memory.wf_writeRun {m : List Host.Cell} (h : Memory.wf m = true) (a : Nat) (bytes : List Byte) :
    Memory.wf (Memory.writeRun m a bytes) = true := by
  induction bytes generalizing m a with
  | nil => exact h
  | cons v vs ih => exact ih (Memory.wf_write h v (Nat.mod_lt _ (by decide))) (a + 1)

/-- The memory after a cold start is canonical (R105). -/
theorem Memory.wf_reset : Memory.wf State.reset.store.ring = true := rfl

/-- Bytes written around the ring stand where they were written, and every other byte is unchanged, as long as they fit
in the ring (R81). -/
theorem Memory.writeRun_holds {m : List Host.Cell} (h : Memory.wf m = true) (a : Nat) (bytes : List Byte)
    (hl : bytes.length ≤ Config.ringBytes) : Memory.Holds m (Memory.writeRun m a bytes) a bytes := by
  induction bytes generalizing m a with
  | nil => exact ⟨fun k hk => absurd hk (Nat.not_lt_zero k), fun b _ => rfl⟩
  | cons v vs ih =>
    have hl' : vs.length + 1 ≤ 131072 := hl
    have hr : Config.ringBytes = 131072 := rfl
    obtain ⟨ih1, ih2⟩ := ih (Memory.wf_write h v (a := a % Config.ringBytes) (Nat.mod_lt _ (by decide))) (a + 1)
      (by simp only [List.length_cons] at hl; omega)
    refine ⟨fun k hk => ?_, fun b hb => ?_⟩
    · cases k with
      | zero =>
        show Memory.read (Memory.writeRun (Memory.write m (a % Config.ringBytes) v) (a + 1) vs) _ = _
        rw [ih2 _ fun k hk => by omega]
        rw [Memory.read_write h, if_pos (by rw [hr]; omega)]; rfl
      | succ k =>
        have := ih1 k (by simpa using hk)
        rw [show a + (k + 1) = a + 1 + k by omega]
        exact this
    · show Memory.read (Memory.writeRun (Memory.write m (a % Config.ringBytes) v) (a + 1) vs) b = _
      rw [ih2 b fun k hk => by have := hb (k + 1) (by simp; omega); omega]
      rw [Memory.read_write h, if_neg]
      rw [hr]; have := hb 0 (by simp); omega

/-- Bytes read around the ring, one by one (R81). -/
theorem Memory.readRun_length (m : List Host.Cell) (a n : Nat) : (Memory.readRun m a n).length = n := by
  simp [Memory.readRun]

end Sys2Proof.Machine
end

