-- ==== Sys2Proof/WellFormed.lean ====
section
/-! DEFINITION. Well-formed commands: a row that stands for a malformed or refused transaction carries one that really is
so, and a record number is in its range. -/

namespace Sys2Proof

open Machine

/-- Why a command term stands for no command of its row. -/
inductive IllFormed where
  /-- A LANE_CMD_BAD_COMMAND that names a command of Table 12-2 (R10). -/
  | laneCommandNamed
  /-- A CONFIRM_MALFORMED that is well formed (R95). -/
  | confirmNamed
  /-- A SHOP_CMD_MALFORMED that names a command (R185). -/
  | shopCommandNamed
  /-- A HEADER_REFUSAL whose header Table 11-2 or Table 11-3 admits and that reads no control item (R179, R180).
  DESIGN CHOICE: log entry 10. -/
  | headerAdmitted
  /-- A BAD_FRAME that is not complete, or that the interface executes (R170). -/
  | frameExecuted
  /-- An OFFER_TIMER_EXPIRY of record number 0, which no entry has (R83). -/
  | recordNumberZero
deriving DecidableEq, Repr

/-- What the key line interface does with the bytes after a sync byte: the reply status of a frame that is not executed,
or none for a frame that is not complete or is executed (R169, R170). -/
def frameRefusal (bytes : List Byte) : Option KeyStatus :=
  match bytes with
  | command :: length :: rest =>
    if maxPayload < length.toNat then some .badFrame
    else if rest.length ≠ length.toNat + 2 then none
    else if bytesOfWord (crc (bytes.take (2 + length.toNat))) ≠ rest.drop length.toNat then some .badFrame
    else
      match payloadSize command with
      | none => some .badCommand
      | some n => if length.toNat ≠ n then some .badLength else none
  | _ => none

/-- The check that a command fails, if any. A write's own length and words are free: what the port or its block does
with them is part of its meaning. -/
def Instr.illFormed : Instr → Option IllFormed
  | .laneCmdBadCommand _ _ _ words => if (laneCmdFault (values words)).isNone then some .laneCommandNamed else none
  | .confirmMalformed _ _ _ words => if (confirmFault (values words)).isNone then some .confirmNamed else none
  | .shopCmdMalformed _ _ _ words => if (shopCmdFault (values words)).isNone then some .shopCommandNamed else none
  | .headerRefusal port dir control code index _ _ =>
    if (decoderRefusal port dir control code index).isNone ∧ ¬ (dir = .read ∧ control = true) then some .headerAdmitted
    else none
  | .badFrame bytes => if (frameRefusal bytes).isNone then some .frameExecuted else none
  | .offerTimerExpiry number => if number = 0 then some .recordNumberZero else none
  | .laneBufWrite _ _ _ _ | .wrap _ _ _ _ | .abandon _ _ _ _ | .resetLane _ _ _ _ | .laneCmdRead _ _ | .laneRspRead _ _
  | .onlineTimerExpiry _ | .takeWrap | .takeAdvise | .takeRewrap | .takeClose | .takeOpen | .wrapCompletion
  | .adviseCompletion | .closeCompletion | .rewrapCompletion | .openCompletion | .offer _ _ | .ringRead _ _ _ _
  | .ack _ _ _ _ _ | .nak _ _ _ _ _ | .unpark _ _ _ _ _ | .spill _ _ | .spillDone _ _ _ _ _ | .spillCancel _ _ _ _ _
  | .spillCommandRefused _ _ _ _ | .intakeClaim _ _ | .intakeWrite _ | .close _ _ _ _ | .linkDown _ _ _ _
  | .linkUp _ _ _ _ | .roll _ _ _ _ | .resume _ _ _ _ | .watermarksWrite _ _ _ _ | .useLimitWrite _ _ _ _
  | .eventStatusClear _ _ _ _ | .eventMaskWrite _ _ _ _ | .writeStatusClear _ _ _ _ | .configWrite _ _ _ _ _
  | .holdLimitExpiry _ _ | .loadTransport _ _ | .loadKey _ _ _ _ | .discardNext | .setPolicy _ | .setShop _
  | .query _ _ | .keyLineGap | .keyLineByteFault | .keyLineReplyEnd | .tamper | .resetAssertion | .resetRelease
  | .powerLoss _ | .powerUp | .syncByte | .readBurstTruncation _ => none

/-- A command that stands for a command of its row. -/
def Instr.WellFormed (c : Instr) : Prop := Instr.illFormed c = none

end Sys2Proof
end

