-- ==== Sys2Proof/Tests/Slice0.lean ====
section
/-! SUPPORT. Tests: what the manual's worked sequences and tables say of single commands, ill-formed terms that the
well-formedness checks refuse, and for each statement with hypotheses a state and operands that meet them. -/

namespace Sys2Proof.Tests

open Sys2Proof.Machine

set_option maxRecDepth 20000
set_option Elab.async false

/-! ### Small states -/

/-- A header with the tag of 11.9's fifth transaction. -/
def hdr : Header := ⟨.linear, 0, 0x15⟩

/-- A LANE_BUF header. -/
def burst (form : BurstForm) (offset : Word) : Header := ⟨form, offset, 0x15⟩

/-- Zero data words in full. -/
def zeros (n : Nat) : List DataWord := List.replicate n (fullWord 0)

/-- The state after one step with this command alone in the queue. -/
def after (c : Instr) (s : State) : State :=
  match step { s with pending := [c] } with
  | .next t => t
  | _ => s

/-- A state with lane `l` as given. -/
def withLane (l : Fin 16) (x : Lane) (s : State) : State := { s with lanes := s.lanes.set l x }

/-- A state with lane `l` in the given lane state. -/
def withMode (l : Fin 16) (m : LaneMode) (s : State) : State := withLane l { s.lanes[l] with mode := m } s

/-- A buffer that begins with the given bytes. -/
def bufferOf (bs : List Byte) : Vector Byte 128 := Vector.ofFn fun i => bs[i.val]?.getD 0

/-- The first `n` bytes WRITTEN. -/
def writtenTo (n : Nat) : Vector Bool 128 := Vector.ofFn fun i => decide (i.val < n)

/-- A lane in ASSEMBLING with a record of the given bytes. -/
def assembled (bs : List Byte) : Lane := { Lane.cold with
  mode := .assembling, buffer := bufferOf bs, written := writtenTo bs.length }

/-- A field of a clear record: code byte, length byte, zeros. -/
def fieldOf (code : Byte) (len : Nat) : List Byte := code :: BitVec.ofNat 8 len :: List.replicate len 0

/-- The ONLINE SALE of 1.7: fallback allowed, class 1, 12,800, card number and expiry WRAP, receipt number CLEAR. -/
def saleBytes : List Byte :=
  [1, 1, 1, 1, 1, 48, 0, 0, 0x32, 0, 0, 0, 0, 0, 0, 0] ++ fieldOf 0x21 16 ++ fieldOf 0x22 4 ++ fieldOf 0x09 6

/-- The shop's policy for 1.7: receipt number (code 9) CLEAR, the rest UNSET. -/
def shopPolicy : Vector PolicyEntry 15 := (Vector.replicate 15 ⟨.unset, false⟩).set 8 ⟨.clear, false⟩

/-- A wrapping key in a role. -/
def wrapKey (role : Role) (epoch uses : Nat) : WrapKey := ⟨role, 0x11, epoch, uses, 0, false⟩

/-- The slots of 10.10 at its start, slot 0 ACTIVE under epoch 41 and slot 1 NEXT under 42. -/
def rollKeys : KeyTable := { KeyTable.cold with
  slots := #v[some (wrapKey .active 41 600212), some (wrapKey .next 42 0), none], highest := 42 }

/-- The slots of 10.10 after its roll. -/
def retiringKeys : KeyTable := { rollKeys with
  slots := #v[some (wrapKey .retiring 41 600212), some (wrapKey .active 42 0), none]
  retiring := 3, campaign := some 5010 }

/-- 10.10's keys with epoch 42 spent and a NEXT loaded under 43: a roll waits for the RETIRING key. -/
def waitingKeys : KeyTable := { retiringKeys with
  slots := #v[some (wrapKey .retiring 41 600212), some (wrapKey .active 42 9), some (wrapKey .next 43 0)]
  highest := 43, useLimit := 9, pendingRoll := true }

/-- An ACTIVE key alone. -/
def activeKeys : KeyTable := { KeyTable.cold with slots := #v[some (wrapKey .active 41 7), none, none], highest := 41 }

/-- The configuration of 7.7: ceiling 50,000, class 0 at 20,000 and weight 8, class 3 at 10,000 and weight 16. -/
def tradeCfg : Settings := { Settings.cold with
  ceiling := 50000
  risk := ((Vector.replicate 8 ⟨0, 8⟩).set 0 ⟨20000, 8⟩).set 3 ⟨10000, 16⟩ }

/-- A part with an ACTIVE key and the configuration of 7.7; its record-number counter stands at 501. -/
def trade : State := { State.reset with
  keys := activeKeys, cfg := tradeCfg, store := { Store.cold with counter := 501 } }

/-- A wrap request of `kind` and `mode` in a card class. -/
def request (kind : TxKind) (mode : Mode) (cardClass : Fin 8) (amount : Nat) : WrapRequest :=
  ⟨kind, mode, false, cardClass, amount, [], 2, 0⟩

/-- A directory entry of a record number in a state with a charge: lane 3, 2 slots, epoch 41. -/
def entry (number : Nat) (state : EntryState) (charge : Nat) : Entry where
  number := number
  lane := 3
  laneSeq := 9
  kind := .sale
  offline := true
  fallback := false
  batch := 1
  epoch := 41
  firstSlot := 2 * (number % 8)
  slots := 2
  length := 64
  state := state
  charge := charge
  awaiting := false
  attempts := 0

/-- A store that holds the given entries. -/
def storeOf (d : List Entry) : Store := { Store.cold with directory := d, tailSlot := 16, counter := 9999 }

/-- A state whose store holds the given entries. -/
def holding (d : List Entry) (s : State) : State := { s with store := storeOf d }

/-- The directory of 10.10 at its start. -/
def threeEntries : List Entry :=
  [entry 5010 .held 0, entry 5011 (.offered 30) 0, { entry 5012 .parked 0 with attempts := 8 }]

/-- A write that only fills a queue place. -/
def filler : PostedWrite := ⟨writeStatusItem, 1, hdr, []⟩

/-- A state with `n` writes in the uplink queue and a held transaction. -/
def queued (n : Nat) (held : Option Held) (s : State) : State :=
  { s with up := { s.up with posted := List.replicate n filler, held := held } }

/-- A write reaches its block on arrival. -/
theorem applies_straight {s : State} {p : PortId} {w : PostedWrite}
    (h : s.run = .running ∧ (s.port p).held = none ∧ w.words.length ≤ 64 ∧ (s.port p).posted = [] ∧
      (s.port p).sending = false) : s.Applies p w s :=
  ⟨h.1, h.2.1, h.2.2.1, .inl ⟨h.2.2.2.1, (State.endAnswer_of_not_sending h.2.2.2.2).symm⟩⟩

/-- A write reaches its block from the front of its queue. -/
theorem applies_queued {s : State} {p : PortId} {w : PostedWrite} {rest : List PostedWrite}
    (h : s.run = .running ∧ (s.port p).held = none ∧ w.words.length ≤ 64 ∧ (s.port p).posted = w :: rest) :
    s.Applies p w (s.setPosted p rest) :=
  ⟨h.1, h.2.1, h.2.2.1, .inr ⟨rest, h.2.2.2, rfl⟩⟩

/-- A part that sends an answer of two data words on the lane port. -/
def sendingState : State := { State.reset with
  lp := { Port.cold with answer := some ⟨.ok, 0x15, [1, 2]⟩, sending := true } }

/-- An INTAKE write of index 0. -/
def intakeOf (words : List DataWord) : PostedWrite := intakePosted 0 ⟨hdr, words⟩

/-- A part whose port is free answers a read at once. -/
theorem open_of {s : State} {p : PortId}
    (h : s.run = .running ∧ (s.port p).held = none ∧ (s.port p).posted = []) : s.Open p := h

/-! ### Ill-formed terms -/

theorem test_ill_formed_lane_command :
    Instr.illFormed (.laneCmdBadCommand .apply 0 hdr [fullWord 3]) = some .laneCommandNamed := by decide

theorem test_ill_formed_confirm :
    Instr.illFormed (.confirmMalformed .apply 0 hdr (fullWord 1 :: zeros 2)) = some .confirmNamed := by decide

theorem test_ill_formed_shop_command :
    Instr.illFormed (.shopCmdMalformed .apply 0 hdr [fullWord 5]) = some .shopCommandNamed := by decide

theorem test_ill_formed_header :
    Instr.illFormed (.headerRefusal .lp .read false 2 15 hdr 1) = some .headerAdmitted := by decide

theorem test_ill_formed_frame :
    Instr.illFormed (.badFrame (frameTail 0x12 [])) = some .frameExecuted := by decide

theorem test_ill_formed_record_number :
    Instr.illFormed (.offerTimerExpiry 0) = some .recordNumberZero := by decide

/-- Terms that the checks admit: a fourth lane command, a lane port read of OFFER (11.2), a CRC that fails. -/
theorem test_well_formed_refusals :
    Instr.illFormed (.laneCmdBadCommand .apply 0 hdr [fullWord 4]) = none ∧
      Instr.illFormed (.headerRefusal .lp .read false 6 0 hdr 1) = none ∧
      Instr.illFormed (.badFrame [0x12, 0, 0, 0]) = none := by decide

/-! ### Lanes -/

/-- 1.7, steps 1 and 2: the frozen request. -/
theorem test_wrap_freezes_request :
    (after (.wrap .apply 5 hdr []) (withLane 5 { assembled saleBytes with generation := 37 }
      { State.reset with policy := shopPolicy, link := ⟨.contact, 0, 0⟩ })).lanes[(5 : Fin 16)].mode =
      .queued ⟨.sale, .online, true, 1, 12800, [.wrap, .wrap, .clear], 3, 37⟩ := by decide +kernel

/-- R33: in OUTAGE the ONLINE SALE of 1.7 is frozen OFFLINE. -/
theorem test_wrap_outage_converts :
    (recordChecks (bufferOf saleBytes) (writtenTo 48) shopPolicy .outage 0).toOption.map WrapRequest.mode =
      some .offline := by decide +kernel

/-- R4: the ninth word of a CIRCULAR burst at offset 13 falls on the first again, and the fourth on offset 8. -/
theorem test_circular_burst_goes_around :
    (List.range 9).map (burstOffset .circular 13) = [13, 14, 15, 8, 9, 10, 11, 12, 13] := by decide

/-- R1, R3: a masked byte keeps value and mark; the other byte of the word is stored and marked. -/
theorem test_buffer_write_masks :
    let l := (after (.laneBufWrite .apply 2 (burst .linear 63) [⟨0xABCD, false, true⟩]) State.reset).lanes[(2 : Fin 16)]
    l.mode = .assembling ∧ l.buffer[126] = 0 ∧ l.written[126] = false ∧ l.buffer[127] = 0xCD ∧
      l.written[127] = true := by decide +kernel

/-- R8: ABANDON of a QUEUED lane. -/
theorem test_abandon_queued :
    let l := (after (.abandon .apply 2 hdr []) (withMode 2 (.queued (request .sale .online 0 1)) trade)).lanes[(2 : Fin 16)]
    l.mode = .idle ∧ l.result = .abandoned := by decide +kernel

/-- 1.7, first variant: RESET_LANE while the advice is in service. -/
theorem test_reset_lane_orphans_advice :
    let l := (after (.resetLane .apply 5 hdr []) (withLane 5 { Lane.cold with
      mode := .fallback ⟨20117, 12800, 1, 37, true⟩, seq := 406, generation := 37 } trade)).lanes[(5 : Fin 16)]
    l.mode = .idle ∧ l.generation = 38 ∧ l.result = .reset ∧ l.orphan = true ∧ l.seq = 406 := by decide +kernel

/-- R10: an unnamed lane command is recorded BAD_COMMAND and leaves the lane. -/
theorem test_lane_bad_command :
    let t := after (.laneCmdBadCommand .apply 5 hdr [fullWord 4]) State.reset
    t.lp.lastRefusal = some ⟨laneCmdWindow, .linear, 5, 0x15, .badCommand⟩ ∧ t.lp.refusalCount = 1 ∧
      t.lanes = State.reset.lanes := by decide +kernel

/-- 1.7, step 5 in the layout of 12.2: WAIT_RESPONSE 0x04, WRAPPED 0x10, record number 20,117. -/
theorem test_lane_read :
    let t := after (.laneCmdRead 5 hdr) (withLane 5 { Lane.cold with
      mode := .waitResponse ⟨20117, 404, true, 12800, 1⟩ 15, result := .wrapped 20117, attention := true } State.reset)
    t.lp.answer = some ⟨.ok, 0x15, [0x0410, 0, 0x4E95, 0]⟩ ∧ t.lanes[(5 : Fin 16)].attention = false := by
  decide +kernel

/-- R21: an ANSWERED lane gives its response once. -/
theorem test_response_read_empties :
    let t := after (.laneRspRead 5 hdr) (withMode 5 (.answered ⟨20117, .approved, [], []⟩) State.reset)
    t.lanes[(5 : Fin 16)].mode = .idle ∧ t.lp.answer.map Answer.status = some .ok := by decide +kernel

/-- 1.7, step 6: the expiry leads to FALLBACK with the advice request. -/
theorem test_timer_expiry_falls_back :
    let t := after (.onlineTimerExpiry 5) (withLane 5 { Lane.cold with
      mode := .waitResponse ⟨20117, 404, true, 12800, 1⟩ 15, generation := 37 }
      { State.reset with link := ⟨.contact, 0, 0⟩ })
    t.lanes[(5 : Fin 16)].mode = .fallback ⟨20117, 12800, 1, 37, false⟩ ∧ t.link = ⟨.doubt, 1, 0⟩ := by decide +kernel

/-! ### The wrap engine -/

/-- 4.9 before its second take: A pointer 5, B pointer 10, share 3, counter 1, no OPEN pending. -/
def peak : State :=
  withMode 2 (.queued (request .sale .online 0 1)) <| withMode 9 (.queued (request .sale .online 0 1)) <|
    withMode 4 (.queued (request .refund .offline 0 1)) <| withMode 15 (.queued (request .refund .offline 0 1)) <|
      withMode 12 (.fallback ⟨1, 1, 0, 0, false⟩) { trade with
        engine := ⟨none, 5, 10, 1⟩, cfg := { tradeCfg with rewrapShare := 3 }
        keys := { activeKeys with campaign := some 31002 }
        batch := { Batch.cold with closePending := true } }

/-- 4.9 with no class A request left, its pointers and counter as given. -/
def peakB (bPtr share : Nat) : State :=
  withMode 2 .wrapping <| withMode 9 .wrapping { peak with engine := ⟨none, 7, bPtr, share⟩ }

/-- 4.9: takes 1 to 3, an OPEN before class A and class A from the A pointer. -/
theorem test_arbiter_class_a :
    { peak with intake := { peak.intake with queue := [[]] } }.due = some .opening ∧ peak.due = some (.wrapA 9) ∧
      (withMode 9 .wrapping { peak with engine := ⟨none, 10, 10, 1⟩ }).due = some (.wrapA 2) := by decide +kernel

/-- 4.9: takes 5, 6, 7, 9, 10 and 11. -/
theorem test_arbiter_class_b :
    (peakB 10 1).due = some (.advise 12) ∧ (withMode 12 .wrapping (peakB 13 2)).due = some (.wrapB 15) ∧
      (withMode 12 .wrapping (withMode 15 .wrapping (peakB 16 3))).due = some .rewrap ∧
      (withMode 12 .wrapping (withMode 15 .wrapping (peakB 16 0))).due = some .close ∧
      (withMode 12 .wrapping (withMode 15 .wrapping { peakB 0 1 with batch := Batch.cold })).due = some (.wrapB 4) ∧
      (withMode 4 .wrapping (withMode 12 .wrapping (withMode 15 .wrapping
        { peakB 5 2 with batch := Batch.cold }))).due = some .rewrap := by decide +kernel

/-- 7.7, steps 1 and 2: charges of 18,000 and 19,998. -/
theorem test_take_charges :
    let t := after .takeWrap (withMode 3 (.queued (request .sale .offline 0 18000)) trade)
    t.meter = 18000 ∧ t.store.counter = 502 ∧ t.store.directory.map Entry.charge = [18000] ∧
      (after .takeWrap (withMode 3 (.queued (request .sale .offline 3 9999)) { trade with meter := 18000 })).meter =
        37998 := by decide +kernel

/-- 7.7, steps 3 and 8: FLOOR in a class of floor 0, and CEILING for a charge of 1 above a lowered ceiling. -/
theorem test_take_refusals :
    (after .takeWrap (withMode 3 (.queued (request .sale .offline 5 100)) trade)).lanes[(3 : Fin 16)].result =
      .offlineRefused .floor ∧
    (after .takeWrap (withMode 3 (.queued (request .sale .offline 0 1))
      { trade with meter := 37998, cfg := { tradeCfg with ceiling := 30000 } })).lanes[(3 : Fin 16)].result =
      .offlineRefused .ceiling := by decide +kernel

/-- 3.8.2: the charge of 4,259 at weight 12, and the ceilings 2,005,000 and 2,010,000. -/
theorem test_exposure_decision :
    exposureDecision ⟨5000, 12⟩ 2005000 2000000 4259 = .error .ceiling ∧
      exposureDecision ⟨5000, 12⟩ 2010000 2000000 4259 = .ok 6389 := ⟨rfl, rfl⟩

/-- 7.7, step 4: an advice of 15,000 above the ceiling ends the lane in IDLE. -/
theorem test_advice_refused_at_ceiling :
    let l := (after .takeAdvise (withMode 3 (.fallback ⟨9, 15000, 0, 0, false⟩)
      { trade with meter := 37998 })).lanes[(3 : Fin 16)]
    l.mode = .idle ∧ l.result = .offlineRefused .ceiling ∧ l.attention = true := by decide +kernel

/-- 10.10, step 2: the take of REWRAP 5,010. -/
theorem test_rewrap_take :
    let t := after .takeRewrap (holding [entry 5010 .held 0, entry 5011 (.offered 30) 0, entry 5012 .parked 0]
      { State.reset with keys := retiringKeys })
    t.store.directory.map Entry.state = [.rewrapping .held, .offered 30, .parked] ∧ t.keys.campaign = some 5012 ∧
      (t.keys.find .active).map WrapKey.uses = some 1 := by decide +kernel

/-- The accumulator of 9.8 at its fifth step. -/
def batch98 : Batch := { Batch.cold with
  number := 65535, first := 88400, recordCount := 118, summaryLost := true, closePending := true, shopSeq := 311
  classes := Batch.cold.classes.set 0 ⟨100, 2500000, 4, 12000, false⟩ }

/-- 9.8, step 5: the close is taken with exactly 7 free slots. -/
theorem test_close_take_cuts_over :
    let t := after .takeClose { trade with
      batch := batch98, store := { storeOf [{ entry 88530 .held 0 with slots := 4089 }] with counter := 88533 } }
    t.batch = { Batch.cold with number := 1, first := 88534, shopSeq := 312 } ∧ t.store.freeSlots = 0 ∧
      t.store.counter = 88534 := by decide +kernel

/-- 8.9, step 3: the OPEN take frees a place, which the held write claims. -/
theorem test_open_take_admits_held_write :
    let t := after .takeOpen { State.reset with
      intake := { State.reset.intake with queue := [[1], [2], [3], [4]] }
      up := { Port.cold with held := some ⟨.intake (intakeOf (zeros 24)), 50, false⟩ } }
    t.intake.queue = [[2], [3], [4]] ∧ t.intake.claimed = 1 ∧ t.up.held = none ∧ t.up.posted.length = 1 := by
  decide +kernel

/-- 3.8.3: the clamp of the debit total, and the completion after it. -/
theorem test_totals_saturate :
    (ClassTotals.mk 1402 1099511625000 0 0 false).add .sale 4259 = ⟨1403, 1099511627775, 0, 0, true⟩ ∧
      (ClassTotals.mk 1403 1099511627775 0 0 true).add .sale 900 = ⟨1404, 1099511627775, 0, 0, true⟩ ∧
      (ClassTotals.mk 1404 1099511627775 0 0 true).add .refund 300 = ⟨1404, 1099511627775, 1, 300, true⟩ := by
  decide

/-- The WRAP in service of 1.7 after its third step. -/
def wrapJob : WrapJob :=
  ⟨5, ⟨.sale, .online, true, 1, 12800, [.wrap, .wrap, .clear], 3, 37⟩, bufferOf saleBytes, 0x11, 41, 20117, 404⟩

/-- 1.7 in service. -/
def wrapServing : State :=
  withLane 5 { Lane.cold with mode := .wrapping, seq := 405, generation := 37 } { trade with
    engine := { State.reset.engine with job := some (.wrap wrapJob) }
    store := storeOf [{ entry 20117 .writing 0 with slots := 3 }] }

/-- 1.7, step 4. -/
theorem test_wrap_completion :
    let t := after .wrapCompletion wrapServing
    t.lanes[(5 : Fin 16)].mode = .waitResponse ⟨20117, 404, true, 12800, 1⟩ 15 ∧
      t.lanes[(5 : Fin 16)].result = .wrapped 20117 ∧ t.store.directory.map Entry.awaiting = [true] := by decide +kernel

/-- The worked lengths: 1.7 (W 96), 3.8.1 (W 112, n 4), 3.9 A (W 256, n 8) and 3.9's last (W 176, n 6). -/
theorem test_record_lengths :
    wrapJob.recordLength = 96 ∧ recordLength (clearLength 20) (bodyLength 24) = 112 ∧ slotCount 112 = 4 ∧
      recordLength (clearLength 80) (bodyLength 112) = 256 ∧ slotCount 256 = 8 ∧
      recordLength (clearLength 0) (bodyLength 112) = 176 ∧ slotCount 176 = 6 := by decide +kernel

/-- 1.7, step 8, and its variant: the orphan's completion clears the orphan flag only. -/
theorem test_advise_completion :
    let s := { trade with
      engine := { State.reset.engine with job := some (.advise ⟨5, 37, 20117, 12800, 1, 0, 0x11, 41, 20131, 405⟩) }
      store := storeOf [entry 20131 .writing 0] }
    let own := after .adviseCompletion (withLane 5 { Lane.cold with
      mode := .fallback ⟨20117, 12800, 1, 37, true⟩, generation := 37 } s)
    let orphan := after .adviseCompletion (withLane 5 { Lane.cold with
      generation := 38, orphan := true, result := .reset } s)
    own.lanes[(5 : Fin 16)].mode = .idle ∧ own.lanes[(5 : Fin 16)].result = .offlineAccepted 20131 ∧
      orphan.lanes[(5 : Fin 16)].result = .reset ∧ orphan.lanes[(5 : Fin 16)].orphan = false := by decide +kernel

/-- A CLOSE in service. -/
def closeJob : CloseJob := ⟨⟨Batch.cold.classes, 118, 65535, 88400, 88532, true⟩, 0x11, 41, 88533, 311⟩

/-- 9.8 in service of the close. -/
def closeServing : State := { trade with
  engine := { State.reset.engine with job := some (.close closeJob) }
  store := storeOf [{ entry 88533 .writing 0 with slots := 7 }] }

/-- 9.8, step 6: the summary is HELD, stamped with the closed batch. -/
theorem test_close_completion :
    let t := after .closeCompletion closeServing
    t.store.directory.map Entry.state = [.held] ∧ t.store.directory.map Entry.batch = [65535] ∧
      t.up.events = Event.offerReady.bit ||| Event.batchClosed.bit := by decide +kernel

/-- The 64 bytes of a stored record without a clear part and with a body of 16 bytes (Lb in byte 31). -/
def rewrapContent : List Byte := List.replicate 31 0 ++ 16 :: List.replicate 32 0

/-- A REWRAP in service of 10.10's last target, with the given held transaction at the uplink port. -/
def rewrapServing (held : Option Held) : State := { State.reset with
  keys := { retiringKeys with campaign := none, retiring := 1 }
  engine := { State.reset.engine with job := some (.rewrap ⟨5011, rewrapContent, 0x11, 0x11, 42⟩) }
  up := { Port.cold with held := held }
  store := storeOf [{ entry 5010 .confirmed 0 with epoch := 42 }, entry 5011 (.rewrapping .held) 0] }

/-- Openings without a response key and under another epoch (8.9, step 7): no cipher is asked. -/
def response84 : List Byte := [0, 0, 0x1F, 0xFE, 1, 0, 0, 7, 0, 6] ++ List.replicate 38 0

/-- A state that serves the opening of that record. -/
def opening (key : Option ResponseKey) (s : State) : State :=
  { s with engine := { s.engine with job := some (.opening ⟨response84, key⟩) } }

/-- 8.9, step 7: epoch 6 under a response key of epoch 7. -/
theorem test_opening_stale_key :
    (after .openCompletion (opening (some ⟨0x22, 7, 0⟩) State.reset)).intake.last = some (.staleKey, 8190) := by
  decide +kernel

/-! ### The record store and the spill unit -/

/-- An entry with its slots. -/
def placed (e : Entry) (first slots : Nat) : Entry := { e with firstSlot := first, slots := slots }

/-- The directory of 5.12 at its start (Table 5-3's records, with their charges and awaiting flags). -/
def outage : List Entry :=
  [{ placed (entry 1001 .held 0) 4085 3 with awaiting := true }, placed (entry 1002 .held 1250) 4088 4,
    placed (entry 1003 .held 0) 4092 2, placed (entry 1004 .held 4000) 4094 4,
    { placed (entry 1005 .held 0) 2 3 with awaiting := true }, placed (entry 1006 .held 900) 5 2]

/-- The store of 5.12 with a directory. -/
def outageState (d : List Entry) : State := { State.reset with
  store := ⟨d, 4085, 7, 1007, true, []⟩, meter := 6150
  cfg := { Settings.cold with attemptLimit := 2, highSlot := 20, lowSlot := 12 } }

/-- 5.12 with entry states from head to tail. -/
def outageWith (states : List EntryState) : State :=
  outageState ((outage.zip states).map fun es => { es.1 with state := es.2 })

/-- 5.12, step 1: the awaiting records go first; the third read finds the oldest of the rest. -/
theorem test_offer_order :
    (after (.offer 0 hdr) (outageState outage)).store.directory.map Entry.state =
      [.offered 30, .held, .held, .held, .held, .held] ∧
    (after (.offer 0 hdr) (outageWith [.offered 30, .held, .held, .held, .held, .held])).store.directory.map
      Entry.state = [.offered 30, .held, .held, .held, .offered 30, .held] ∧
    (after (.offer 0 hdr) (outageWith [.offered 30, .held, .held, .held, .offered 30, .held])).store.directory.map
      Entry.state = [.offered 30, .offered 30, .held, .held, .offered 30, .held] := by decide +kernel

/-- 5.12, step 9, in the layout of 12.3: the descriptor of 1,004 gives first slot 4,094 and slot count 4. -/
theorem test_offer_descriptor :
    (after (.offer 0 hdr) (outageWith [.spilled, .confirmed, .offered 30, .held, .held, .held])).up.answer.map
      Answer.words = some [0, 1005, 2, 0x0301, 64, 0x0500, 0, 0] ∧
    descriptorWords ((outage.drop 3).headD (entry 0 .held 0)) = [0, 1004, 4094, 0x0401, 64, 0x0100, 0, 0] := by
  decide +kernel

/-- 5.12, step 9: a burst of 64 words from slot 4,094 runs across the end of the ring into slot 1. -/
theorem test_ring_read_runs_around :
    let t := after (.ringRead .up 4094 hdr 64) { outageWith [.held, .held, .held, .offered 30, .held, .held] with
      store := { (outageWith [.held, .held, .held, .offered 30, .held, .held]).store with ring := [(1, 0xAB)] } }
    t.up.answer.map Answer.status = some .ok ∧ t.up.answer.bind (fun a => a.words[32]?) = some 0x00AB ∧
      t.up.answer.bind (fun a => a.words[63]?) = some 0 := by decide +kernel

/-- R94: slots that are not OFFERED are refused DENIED at the uplink port. -/
theorem test_ring_read_denied :
    (after (.ringRead .up 4094 hdr 1) (outageState outage)).up.answer = some ⟨.denied, 0x15, []⟩ := by decide +kernel

/-- 5.12, step 7: an ACK behind a PARKED head releases 1,250 and reclaims nothing. -/
theorem test_ack_behind_head :
    let t := after (.ack .apply 0 hdr 1002 []) (outageWith [.parked, .offered 30, .held, .held, .held, .held])
    t.meter = 4900 ∧ t.store.headSlot = 4085 ∧ t.store.entriesUsed = 6 ∧ t.link.signs = 1 := by decide +kernel

/-- 5.12, step 11: the ACK of the head reclaims 1,003 and 1,004 around the end of the ring and arms the flag. -/
theorem test_ack_reclaims :
    let s := outageWith [.held, .held, .offered 30, .confirmed, .held, .held]
    let t := after (.ack .apply 0 hdr 1003 []) { s with
      store := { s.store with directory := s.store.directory.drop 2, headSlot := 4092, armed := false } }
    t.store.headSlot = 2 ∧ t.store.directory.map Entry.number = [1005, 1006] ∧ t.store.armed = true := by
  decide +kernel

/-- 5.12, steps 3 and 6: the first NAK returns the entry, the second parks it at the limit of 2. -/
theorem test_nak_parks_at_limit :
    let s := outageWith [.offered 30, .held, .held, .held, .held, .held]
    let t := after (.nak .apply 0 hdr 1001 []) s
    let u := after (.nak .apply 0 hdr 1001 []) (outageState [{ entry 1001 (.offered 30) 0 with attempts := 1 }])
    t.store.directory.map Entry.state = [.held, .held, .held, .held, .held, .held] ∧
      u.store.directory.map Entry.state = [.parked] ∧ u.up.events = Event.parked.bit := by decide +kernel

/-- R99: UNPARK makes a PARKED entry HELD with attempts 0. -/
theorem test_unpark :
    ((after (.unpark .apply 0 hdr 5012 []) (holding threeEntries State.reset)).store.directory.map
      fun e => (e.state, e.attempts)) = [(.held, 0), (.offered 30, 0), (.held, 0)] := by decide +kernel

/-- R95: a CONFIRM write of two words is recorded BAD_FORMAT. -/
theorem test_confirm_malformed :
    (after (.confirmMalformed .apply 0 hdr (zeros 2)) State.reset).up.lastRefusal =
      some ⟨confirmWindow, .linear, 0, 0x15, .badFormat⟩ := by decide +kernel

/-- 5.12, step 4: the offer timer's expiry returns 1,005 with attempts 1. -/
theorem test_offer_timer_expiry :
    ((after (.offerTimerExpiry 1005) (outageWith [.held, .held, .held, .held, .offered 30,
      .held])).store.directory.map Entry.attempts) = [0, 0, 0, 0, 1, 0] := by decide +kernel

/-- 6.7: `n` list items of charge 0. -/
def listOf (n : Nat) : List SpillItem := (List.range n).map fun k => ⟨k + 1, 0, 1⟩

/-- 6.7 with a directory, a reservation and a list, use above the low slot mark. -/
def spillState (d : List Entry) (r : Option Reservation) (l : List SpillItem) : State := { State.reset with
  store := { Store.cold with directory := d, tailSlot := 12, counter := 7404 }, spill := ⟨r, l⟩
  meter := directoryCharges d + spillCharges l, cfg := { Settings.cold with lowSlot := 1 } }

/-- 6.7, steps 1 and 4: 7,400 is reserved with 255 items; with a full list the charged 7,402 gets LIST_FULL. -/
theorem test_spill_read :
    let t := after (.spill 0 hdr) (spillState [entry 7400 .parked 12000, entry 7401 (.offered 30) 0] none (listOf 255))
    t.spill.reservation = some ⟨7400, true⟩ ∧ t.store.directory.map Entry.state = [.spilling, .offered 30] ∧
      (after (.spill 0 hdr) (spillState [entry 7401 (.offered 30) 0, entry 7402 .held 8500, entry 7403 .held 0] none
        (listOf 256))).lp.answer = some ⟨.empty, 0x15, [2]⟩ := by decide +kernel

/-- 6.7, step 3: the charge of 12,000 moves to the list, the head is reclaimed and E stays. -/
theorem test_spill_done :
    let t := after (.spillDone .apply 0 hdr 7400 []) (spillState [entry 7400 .spilling 12000, entry 7401 (.offered 30) 0]
      (some ⟨7400, true⟩) (listOf 2))
    t.spill.list = listOf 2 ++ [⟨7400, 12000, 1⟩] ∧ t.meter = 12000 ∧ t.store.directory.map Entry.number = [7401] ∧
      t.spill.reservation = none := by decide +kernel

/-- 6.7, step 8: SPILL_DONE on a GONE reservation. -/
theorem test_spill_gone :
    let t := after (.spillDone .apply 0 hdr 7402 []) (spillState [entry 7402 .confirmed 0] (some ⟨7402, false⟩) [])
    t.lp.lastRefusal.map RecordedRefusal.reason = some .gone ∧ t.spill.reservation = none := by decide +kernel

/-- R114: SPILL_CANCEL returns the entry to HELD. -/
theorem test_spill_cancel :
    let t := after (.spillCancel .apply 0 hdr 7402 []) (spillState [entry 7402 .spilling 8500] (some ⟨7402, true⟩) [])
    t.store.directory.map Entry.state = [.held] ∧ t.spill.reservation = none ∧ t.meter = 8500 := by decide +kernel

/-- R112: a spill command of a number that is not reserved is refused NOT_SPILLING. -/
theorem test_spill_command_refused :
    (after (.spillCommandRefused .apply 0 hdr (fullWord 2 :: zeros 2)) State.reset).lp.lastRefusal.map
      RecordedRefusal.reason = some .notSpilling := by decide +kernel

/-! ### Intake, link, batch and shop commands -/

/-- 8.9, steps 1 and 2: a fourth header claims the last place, a fifth is held. -/
theorem test_intake_claim :
    (after (.intakeClaim 0 ⟨hdr, zeros 24⟩) { State.reset with
      intake := { State.reset.intake with queue := [[1], [2], [3]] } }).intake.claimed = 1 ∧
    (after (.intakeClaim 0 ⟨hdr, zeros 24⟩) { State.reset with
      intake := { State.reset.intake with queue := [[1], [2], [3], [4]] } }).up.held =
        some ⟨.intake (intakeOf (zeros 24)), 50, false⟩ := by decide +kernel

/-- R183: an INTAKE write of 65 words keeps 64 in its place and sets the flag as they cross, before a tamper. -/
theorem test_intake_truncation :
    let t := after (.intakeClaim 0 ⟨hdr, zeros 65⟩) State.reset
    t.up.posted.map (fun w => w.words.length) = [64] ∧ t.up.truncated = true ∧
      (after .tamper t).up.truncated = true ∧ (after .tamper t).up.posted = [] := by decide +kernel

/-- 8.9, step 9: an INTAKE write applied under suspension is dropped, and its place is free. -/
theorem test_intake_write_suspended :
    let t := after (.intakeWrite (zeros 24)) { State.reset with
      intake := { State.reset.intake with claimed := 1, suspended := true }
      up := { Port.cold with posted := [intakeOf (zeros 24)] } }
    t.intake.claimed = 0 ∧ t.intake.queue = [] ∧ t.up.lastRefusal.map RecordedRefusal.reason = some .suspended := by
  decide +kernel

/-- 7.10, steps 1 to 12: DOUBT, CONTACT, DOUBT, OUTAGE and CONTACT again. -/
theorem test_link_sequence :
    let m := fun (l : Link) => l.miss 3
    let g := fun (l : Link) => l.sign 2
    g (g ⟨.doubt, 0, 0⟩) = ⟨.contact, 0, 0⟩ ∧ m (m ⟨.contact, 0, 0⟩) = ⟨.doubt, 2, 0⟩ ∧
      g ⟨.doubt, 2, 0⟩ = ⟨.doubt, 0, 1⟩ ∧ m (m (m ⟨.doubt, 0, 1⟩)) = ⟨.outage, 0, 0⟩ ∧
      m (g ⟨.outage, 0, 0⟩) = ⟨.outage, 0, 0⟩ ∧ g (g ⟨.outage, 0, 0⟩) = ⟨.contact, 0, 0⟩ := by decide

/-- 7.10, first variant: LINK_DOWN in DOUBT, and LINK_UP back. -/
theorem test_link_commands :
    let t := after (.linkDown .apply 0 hdr []) { State.reset with link := ⟨.doubt, 2, 0⟩ }
    t.link = ⟨.outage, 0, 0⟩ ∧ t.up.events = Event.link.bit ∧
      (after (.linkUp .apply 0 hdr []) t).link = ⟨.contact, 0, 0⟩ := by decide +kernel

/-- 9.8, step 2: a second CLOSE is refused BUSY. -/
theorem test_close_busy :
    (after (.close .apply 0 hdr []) { State.reset with batch := batch98 }).up.lastRefusal =
      some ⟨shopCmdWindow, .linear, 0, 0x15, .busy⟩ := by decide +kernel

/-- 10.10, step 1: the roll. -/
theorem test_roll :
    let t := after (.roll .apply 0 hdr []) (holding threeEntries { State.reset with keys := rollKeys })
    t.keys = retiringKeys := by decide +kernel

/-- 10.10, second variant: ROLL while a key is RETIRING. -/
theorem test_roll_busy :
    (after (.roll .apply 0 hdr []) { State.reset with keys := retiringKeys }).up.lastRefusal =
      some ⟨shopCmdWindow, .linear, 0, 0x15, .busy⟩ := by decide +kernel

/-- 8.9, step 10: RESUME. -/
theorem test_resume :
    let t := after (.resume .apply 0 hdr []) { State.reset with
      intake := ⟨[], 0, true, 2, 1, some (.forged, 8205)⟩ }
    t.intake = ⟨[], 0, false, 0, 0, some (.forged, 8205)⟩ := by decide +kernel

/-- R185: a SHOP_CMD word that names nothing. -/
theorem test_shop_command_malformed :
    (after (.shopCmdMalformed .apply 0 hdr [fullWord 6]) State.reset).up.lastRefusal.map RecordedRefusal.reason =
      some .badCommand := by decide +kernel

/-! ### Control items and ports -/

/-- R88: a low mark above its high mark is stored as the high mark, 0 as 1 and 65,535 as the most. -/
theorem test_watermarks_clamp :
    let c := (after (.watermarksWrite .apply 0 hdr [fullWord 20, fullWord 30, fullWord 65535, fullWord 0])
      State.reset).cfg
    c.highSlot = 20 ∧ c.lowSlot = 20 ∧ c.highEntry = 511 ∧ c.lowEntry = 1 := by decide +kernel

/-- R163's table: the wear points of the limits 1,048,576, 100,000 and 16. -/
theorem test_wear_points : [1048576, 100000, 16].map wearPoint = [983040, 93750, 15] := by decide

/-- R162: a limit of 2,000,000 is stored as 1,048,576, one of 0 as 1. -/
theorem test_use_limit_clamps :
    (after (.useLimitWrite .apply 0 hdr [fullWord 30, fullWord 0x8480]) State.reset).keys.useLimit = 1048576 ∧
      (after (.useLimitWrite .apply 0 hdr (zeros 2)) State.reset).keys.useLimit = 1 := by decide +kernel

/-- R186: writing 1 to LANE (bit 0) clears it and leaves the others. -/
theorem test_event_status_clear :
    (after (.eventStatusClear .apply .lp hdr [fullWord 0, fullWord 1])
      { State.reset with lp := { Port.cold with events := Event.lane.bit ||| Event.tamper.bit } }).lp.events =
      Event.tamper.bit := by decide +kernel

/-- R186, R191: a mask of all ones keeps the port's own events; LANE is none of the uplink port's. -/
theorem test_event_mask_write :
    let m := (after (.eventMaskWrite .apply .up hdr [fullWord 0xFFFF, fullWord 0xFFFF]) State.reset).up.mask
    m &&& Event.lane.bit = 0 ∧ m &&& Event.forged.bit ≠ 0 := by decide +kernel

/-- 11.9, step 6: the item is cleared, DENIED stays. -/
theorem test_write_status_clear :
    let t := after (.writeStatusClear .apply .up hdr []) { State.reset with up := { Port.cold with
      lastRefusal := some ⟨confirmWindow, .linear, 0, 0x12, .notOffered⟩, refusalCount := 2
      events := Event.denied.bit } }
    t.up.lastRefusal = none ∧ t.up.refusalCount = 0 ∧ t.up.events = Event.denied.bit := by decide +kernel

/-- 11.9, step 3: a ceiling of 3,000,000,000 is stored as 2,147,483,647. -/
theorem test_ceiling_clamps :
    (after (.configWrite .apply .ceiling 0 hdr [fullWord 0xB2D0, fullWord 0x5E00]) State.reset).cfg.ceiling =
      2147483647 := by decide +kernel

/-- 11.9, step 4: a risk table write of index 9 is refused BAD_WINDOW at its header. -/
theorem test_header_refusal :
    let t := after (.headerRefusal .up .write true 0x10 9 ⟨.linear, 0, 0x14⟩ 3) State.reset
    t.up.lastRefusal = some ⟨⟨true, 0x10⟩, .linear, 9, 0x14, .badWindow⟩ ∧ t.up.refusalCount = 1 ∧
      t.up.events = Event.denied.bit := by decide +kernel

/-- R180, R181, R191: a CLOSE, then a read of the batch status on the uplink port, waits for it and shows close-pending;
the header of an unindexed item on an empty queue is answered at once. -/
theorem test_control_read_waits :
    let t := after (.headerRefusal .up .read true 0x08 0 hdr 8) (after (.close .post 0 hdr []) State.reset)
    let u := after (.close .apply 0 hdr []) t
    t.up.answer = none ∧ t.up.held = some ⟨.read ⟨.control 0x08 8, 0, hdr⟩, 50, false⟩ ∧
      u.up.answer = some ⟨.ok, 0x15, [1, 0, 1, 0, 0, 0x0001, 0, 0]⟩ ∧ u.up.held = none := by decide +kernel

/-- R182: the same read at its hold limit is answered HELD_OUT and recorded; R188: at a tamper it is ABORTED. -/
theorem test_control_read_held_out :
    let t := after (.headerRefusal .up .read true 0x08 0 hdr 8) (queued 1 none State.reset)
    let u := after (.holdLimitExpiry .up 8) t
    u.up.answer = some ⟨.heldOut, 0x15, []⟩ ∧ u.up.events = Event.heldOut.bit ∧
      u.up.lastRefusal = some ⟨⟨true, 0x08⟩, .linear, 0, 0x15, .heldOut⟩ ∧
      (after .tamper t).up.answer = some ⟨.aborted, 0x15, []⟩ := by decide +kernel

/-- 11.9: an OFFER read held for 50 µs is answered HELD_OUT. -/
theorem test_hold_limit_expiry :
    let t := after (.holdLimitExpiry .up 0) (queued 1 (some ⟨.read ⟨.offer, 0, hdr⟩, 50, false⟩) State.reset)
    t.up.answer = some ⟨.heldOut, 0x15, []⟩ ∧ t.up.held = none ∧ t.up.events = Event.heldOut.bit ∧
      t.up.posted.length = 1 := by decide +kernel

/-! ### The key line -/

/-- R192's computation (start 0xFFFF, 0x1021, no inversion) gives that CRC's published check value over the nine digits. -/
theorem test_crc : crc [0x31, 0x32, 0x33, 0x34, 0x35, 0x36, 0x37, 0x38, 0x39] = 0x29B1 := by decide

/-- A part whose receiver has just had a sync byte. -/
def listening (s : State) : State := { s with keyLine := .receiving [] }

/-- R171: a second LOAD_TRANSPORT is refused LOCKED. -/
theorem test_load_transport_locked :
    (after (.loadTransport 1 2) (listening { State.reset with
      keys := { KeyTable.cold with transport := some ⟨3, 4⟩ } })).keyLine = .replying (frameBytes 0x10 [0x04]) := by
  decide +kernel

/-- R172: LOAD_KEY without a transport key is refused NO_TRANSPORT. -/
theorem test_load_key_no_transport :
    (after (.loadKey 1 43 0 0) (listening State.reset)).keyLine = .replying (frameBytes 0x11 [0x05]) := by
  decide +kernel

/-- R173: DISCARD_NEXT empties the NEXT slot and keeps the highest epoch. -/
theorem test_discard_next :
    let t := after .discardNext (listening { State.reset with keys := rollKeys })
    t.keys.slots = #v[some (wrapKey .active 41 600212), none, none] ∧ t.keys.highest = 42 := by decide +kernel

/-- R35: an undefined shop class (bits 2-0 above 4) is stored as DROP; bit 7 is the required flag. -/
theorem test_set_policy :
    let t := after (.setPolicy (((Vector.replicate 15 0).set 0 0x82).set 14 0x07)) (listening State.reset)
    t.policy[0] = ⟨.truncate, true⟩ ∧ t.policy[14] = ⟨.drop, false⟩ := by decide +kernel

/-- R174: SET_SHOP is LOCKED once the identity is not 0. -/
theorem test_set_shop_locked :
    let t := after (.setShop 7) (listening State.reset)
    t.keys.identity = 7 ∧ (after (.setShop 8) (listening t)).keys.identity = 7 := by decide +kernel

/-- R175: an undefined selector. -/
theorem test_query_bad_selector :
    (after (.query 4 0) (listening State.reset)).keyLine = .replying (frameBytes 0x30 [0x0B]) := by decide +kernel

/-- R170: a frame whose CRC fails is answered BAD_FRAME; one cut short by a gap or a byte fault is not answered. -/
theorem test_bad_frame :
    (after (.badFrame [0x12, 0, 0, 0]) (listening State.reset)).keyLine = .replying (frameBytes 0x12 [0x01]) ∧
      (after .keyLineGap { State.reset with keyLine := .receiving [0x12, 0] }).keyLine = .hunt ∧
      (after .keyLineByteFault { State.reset with keyLine := .receiving [0x12, 0] }).keyLine = .hunt := by
  decide +kernel

/-- R170: the receiver hunts, hears the sync byte, and hunts again at the end of its reply. -/
theorem test_sync_and_reply_end :
    (after .syncByte State.reset).keyLine = .receiving [] ∧
      (after .keyLineReplyEnd { State.reset with keyLine := .replying [1] }).keyLine = .hunt := by decide +kernel

/-! ### Tamper, resets and power -/

/-- R176: a tamper empties the key slots and keeps highest epoch and identity. -/
theorem test_tamper :
    let t := after .tamper { State.reset with keys := { rollKeys with identity := 7 } }
    t.keys.slots = Vector.replicate 3 none ∧ t.keys.highest = 42 ∧ t.keys.identity = 7 ∧
      t.up.events = Event.tamper.bit := by decide +kernel

/-- 7.7, step 11: a warm reset in the service of 504 returns the charge and the number. -/
theorem test_reset_abandons :
    let t := after .resetAssertion { trade with
      meter := 28000, engine := { State.reset.engine with job := some (.wrap { wrapJob with number := 504 }) }
      store := { storeOf [entry 504 .writing 10000] with counter := 505 } }
    t.meter = 18000 ∧ t.store.counter = 504 ∧ t.store.directory = [] := by decide +kernel

/-- 9.8, first variant: a warm reset in the service of the close sets first record, shop sequence and summary-lost. -/
theorem test_reset_abandons_close :
    let t := after .resetAssertion { closeServing with
      store := { closeServing.store with counter := 88534 }
      batch := { Batch.cold with number := 1, first := 88534, shopSeq := 312 } }
    t.batch = { Batch.cold with number := 1, first := 88533, shopSeq := 311, summaryLost := true } ∧
      t.store.counter = 88533 := by decide +kernel

/-- 5.12, third variant: the release of RESET after step 9. -/
theorem test_reset_release :
    let t := after .resetRelease { outageWith [.held, .held, .offered 30, .offered 30, .held, .held] with run := .inReset }
    t.run = .running ∧ t.store.directory.map Entry.state = [.held, .held, .held, .held, .held, .held] ∧
      t.up.events = Event.restarted.bit ∧ t.store.armed = false := by decide +kernel

/-- R104: while RESET stays asserted, power lost and restored leaves the part in reset; its release starts it, after a
warm start with RESTARTED and after a cold start with no event. -/
theorem test_reset_held_over_power_loss :
    let warm := after .powerUp (after (.powerLoss true) (after .resetAssertion trade))
    let cold := after .powerUp (after (.powerLoss false) (after .resetAssertion trade))
    warm.run = .inReset ∧ (after .resetRelease warm).run = .running ∧
      (after .resetRelease warm).up.events = Event.restarted.bit ∧
      cold.run = .inColdReset ∧ (after .resetRelease cold).run = .running ∧
      (after .resetRelease cold).up.events = 0 := by decide +kernel

/-- R104: power lost without the backup supply, and the cold start after it. -/
theorem test_power_loss_and_cold_start :
    let t := after (.powerLoss false) trade
    t.run = .unpowered ∧ (after .powerUp t).keys = KeyTable.cold ∧ (after .powerUp t).store.counter = 1 := by
  decide +kernel

/-- R183: the 65th data word of a read. -/
theorem test_read_truncation :
    let t := after (.readBurstTruncation .lp) sendingState
    t.lp.truncated = true ∧ t.lp.events = Event.overrun.bit := by decide +kernel

/-- The part idles on an empty queue (log entry 1). -/
theorem test_empty_queue_idles : step State.reset = .next State.reset := rfl

/-! ### Witnesses: states and operands that meet the hypotheses of the statements -/

/-- A queue of three and a queue of four: the last place and none. -/
theorem witness_ArrivingWriteTakesPlaceOrIsHeld :
    writeOf (.linkUp .post 0 hdr (zeros 63)) = some (.up, .post, shopWrite 0 hdr linkUpWord (zeros 63)) ∧
      (shopWrite 0 hdr linkUpWord (zeros 63)).words.length ≤ 64 ∧
      ((queued 3 none State.reset).run = .running ∧ ((queued 3 none State.reset).port .up).held = none ∧
        ((queued 3 none State.reset).port .up).posted.length < 4) ∧
      ((queued 4 none State.reset).run = .running ∧ ((queued 4 none State.reset).port .up).held = none ∧
        4 ≤ ((queued 4 none State.reset).port .up).posted.length) := by decide +kernel

theorem witness_BurstLimitTruncates :
    (writeOf (.laneBufWrite .post 0 hdr (zeros 65)) =
        some (.lp, .post, ⟨laneBufWindow, laneIndex 0, hdr, zeros 65⟩) ∧ State.reset.run = .running ∧
      (State.reset.port .lp).held = none ∧ (State.reset.port .lp).posted.length < 4 ∧ 64 < (zeros 65).length) ∧
    (State.reset.up.held = none ∧ State.reset.up.posted.length < 4 ∧
      State.reset.intake.queue.length + State.reset.intake.claimed < 4) ∧
    (sendingState.run = .running ∧ (sendingState.port .lp).sending = true) := by decide +kernel

theorem witness_ReadWaitsForPostedWrites :
    (readOf (.offer 0 hdr) = some (.up, ⟨.offer, 0, hdr⟩) ∧ (queued 1 none State.reset).run = .running ∧
      ((queued 1 none State.reset).port .up).held = none ∧ ((queued 1 none State.reset).port .up).posted ≠ []) ∧
    (let s := queued 1 (some ⟨.read ⟨.offer, 0, hdr⟩, 50, false⟩) State.reset;
      s.run = .running ∧ (s.port .up).posted = [⟨writeStatusItem, portIndex .up, hdr, []⟩] ∧
      (s.port .up).held = some ⟨.read ⟨.offer, 0, hdr⟩, 50, false⟩) := by decide +kernel

/-- The last word of the buffer, in an IDLE lane; and a write from the front of a queue. -/
theorem witness_LinearBurstStoresItsBytes :
    State.reset.Applies .lp ⟨laneBufWindow, laneIndex 0, burst .linear 63, [fullWord 1]⟩ State.reset ∧
      State.reset.lanes[(0 : Fin 16)].mode = .idle ∧ (burst .linear 63).form = .linear ∧
      (burst .linear 63).offset.toNat + [fullWord 1].length ≤ 64 ∧ (burst .linear 63).offset.toNat ≤ 63 :=
  ⟨applies_straight (by decide), by decide⟩

/-- Nine words from the last offset of the last chunk, where the ninth falls on the first again and is masked in one half;
in an IDLE and in an ASSEMBLING lane. -/
theorem witness_CircularBurstStaysInItsChunk :
    let words := zeros 8 ++ [⟨0xABCD, true, false⟩]
    let place := fun (k : Nat) => 2 * (63 / 8 * 8 + (63 + k) % 8)
    State.reset.Applies .lp ⟨laneBufWindow, laneIndex 0, burst .circular 63, words⟩ State.reset ∧
      State.reset.lanes[(0 : Fin 16)].mode = .idle ∧ (burst .circular 63).form = .circular ∧
      (withMode 0 .assembling State.reset).lanes[(0 : Fin 16)].mode = .assembling ∧
      (burst .circular 63).offset.toNat = 63 ∧ words[1]? = some (fullWord 0) ∧ words.length ≤ 1 + 8 ∧
      (place 8 = place 0 ∧ words[8]? = some ⟨0xABCD, true, false⟩ ∧ words[0]? = some (fullWord 0)) ∧
      ∀ k, k < 4 → place k ≠ 120 :=
  ⟨applies_straight (by decide), by decide, by decide, by decide +kernel, by decide⟩

/-- R4, R1: the ninth word falls on the first; its masked half leaves the byte of the first pass. -/
theorem test_circular_burst_masks :
    let l := (after (.laneBufWrite .apply 2 (burst .circular 63) (⟨0x1234, true, true⟩ :: zeros 7 ++
      [⟨0xABCD, true, false⟩])) State.reset).lanes[(2 : Fin 16)]
    l.buffer[126] = 0xAB ∧ l.buffer[127] = 0x34 ∧ l.mode = .assembling := by decide +kernel

/-- A lane in WRAPPING; two words at offset 63; a start at offset 64. -/
theorem witness_BufferWriteRefusals :
    ((withMode 0 .wrapping State.reset).Applies .lp ⟨laneBufWindow, laneIndex 0, hdr, [fullWord 1]⟩
        (withMode 0 .wrapping State.reset) ∧
      (withMode 0 .wrapping State.reset).lanes[(0 : Fin 16)].mode ≠ .idle ∧
      (withMode 0 .wrapping State.reset).lanes[(0 : Fin 16)].mode ≠ .assembling) ∧
    (State.reset.Open .lp ∧ State.reset.lanes[(0 : Fin 16)].mode = .idle ∧ (zeros 2).length ≤ 64 ∧
      (burst .linear 63).offset.toNat ≤ 63 ∧ 64 < (burst .linear 63).offset.toNat + (zeros 2).length) ∧
    (State.reset.Applies .lp ⟨laneBufWindow, laneIndex 0, burst .circular 64, [fullWord 1]⟩ State.reset ∧
      63 < (burst .circular 64).offset.toNat) :=
  ⟨⟨applies_straight (by decide +kernel), by decide +kernel⟩, ⟨open_of (by decide), by decide⟩,
    applies_straight (by decide), by decide⟩

/-- The checks' outcome for the record of 1.7. -/
theorem sale_checks :
    recordChecks (bufferOf saleBytes) (writtenTo 48) shopPolicy .contact 37 =
      .ok ⟨.sale, .online, true, 1, 12800, [.wrap, .wrap, .clear], 3, 37⟩ := by rfl

/-- 1.7's lane, with its orphan flag CLEAR or SET. -/
def assemblingState (orphan : Bool) : State :=
  withLane 5 { assembled saleBytes with generation := 37, orphan := orphan }
    { State.reset with policy := shopPolicy, link := ⟨.contact, 0, 0⟩ }

theorem witness_WrapIsAcceptedOrRefused :
    (∀ orphan, (assemblingState orphan).Applies .lp (laneCmdWrite 5 hdr wrapWord []) (assemblingState orphan) ∧
      (assemblingState orphan).lanes[(5 : Fin 16)].mode = .assembling ∧
      (assemblingState orphan).lanes[(5 : Fin 16)].orphan = orphan) ∧
    (withLane 5 (assembled (saleBytes.take 47)) State.reset).lanes[(5 : Fin 16)].mode = .assembling ∧
    recordChecks (bufferOf (saleBytes.take 47)) (writtenTo 47) shopPolicy .contact 37 = .error .incomplete ∧
    (State.reset.Applies .lp (laneCmdWrite 5 hdr wrapWord []) State.reset ∧
      State.reset.lanes[(5 : Fin 16)].mode ≠ .assembling) :=
  ⟨fun orphan => ⟨applies_straight (by cases orphan <;> decide +kernel), by cases orphan <;> decide +kernel⟩,
    by decide +kernel, rfl, applies_straight (by decide), by decide⟩

/-- A SALE of the least amount, OFFLINE, with no field: 2 slots. -/
theorem witness_FrozenRequestStaysInBounds :
    recordChecks (bufferOf [1, 2, 0, 0, 1, 16, 0, 0, 0, 1, 0, 0, 0, 0, 0, 0]) (writtenTo 16) shopPolicy .outage 0 =
      .ok ⟨.sale, .offline, false, 0, 1, [], 2, 0⟩ := by rfl

/-- The last field code, and the record of 1.7. -/
theorem witness_EffectiveClassIsMoreProtective :
    (Machine.Field.mk 15 .drop 16 0).code = (14 : Fin 15).val + 1 ∧
      (recordChecks (bufferOf saleBytes) (writtenTo 48) shopPolicy .contact 37).isOk = true :=
  ⟨rfl, by decide +kernel⟩

theorem witness_AbandonAndResetReachIdle :
    ((withMode 15 .assembling State.reset).Applies .lp (laneCmdWrite 15 hdr abandonWord [])
        (withMode 15 .assembling State.reset) ∧
      (withMode 15 .assembling State.reset).lanes[(15 : Fin 16)].mode = .assembling) ∧
    (withMode 15 (.queued (request .sale .online 0 1)) State.reset).lanes[(15 : Fin 16)].mode =
      .queued (request .sale .online 0 1) ∧
    (State.reset.lanes[(15 : Fin 16)].mode ≠ .assembling ∧
      ∀ r, State.reset.lanes[(15 : Fin 16)].mode ≠ .queued r) ∧
    State.reset.Applies .lp (laneCmdWrite 15 hdr resetLaneWord []) State.reset :=
  ⟨⟨applies_straight (by decide +kernel), by decide +kernel⟩, by decide +kernel,
    ⟨by decide, fun r h => by cases (show LaneMode.idle = .queued r from h)⟩, applies_straight (by decide)⟩

/-- For each window: a short write, and the words just outside its commands. -/
theorem witness_MalformedCommandIsDropped :
    (∀ w ∈ [[], [fullWord 0], [fullWord 4]],
      State.reset.Applies .lp ⟨laneCmdWindow, laneIndex 0, hdr, w⟩ State.reset) ∧
    (∀ w ∈ [zeros 2, zeros 3, fullWord 4 :: zeros 2],
      State.reset.Applies .up ⟨confirmWindow, 0, hdr, w⟩ State.reset) ∧
    (∀ w ∈ [zeros 2, zeros 3, fullWord 3 :: zeros 2],
      State.reset.Applies .lp ⟨spillWindow, 0, hdr, w⟩ State.reset) ∧
    (∀ w ∈ [[], [fullWord 0], [fullWord 6]], State.reset.Applies .up ⟨shopCmdWindow, 0, hdr, w⟩ State.reset) := by
  refine ⟨?_, ?_, ?_, ?_⟩ <;> intro w h <;>
    simp only [List.mem_cons, List.not_mem_nil, or_false] at h <;> rcases h with rfl | rfl | rfl <;>
    exact applies_straight (by decide)

theorem witness_LaneReadsReportAndRelease :
    State.reset.Open .lp ∧
      ((withMode 5 (.answered ⟨1, .refer, [], []⟩) State.reset).Open .lp ∧
        (withMode 5 (.answered ⟨1, .refer, [], []⟩) State.reset).lanes[(5 : Fin 16)].mode =
          .answered ⟨1, .refer, [], []⟩) ∧
      ∀ r, State.reset.lanes[(5 : Fin 16)].mode ≠ .answered r :=
  ⟨open_of (by decide), ⟨open_of (by decide +kernel), by decide +kernel⟩,
    fun r h => by cases (show LaneMode.idle = .answered r from h)⟩

theorem witness_TimerExpiryFallsBackOrGivesUp :
    ∀ fallback : Bool, let a : Awaited := ⟨20117, 404, fallback, 12800, 1⟩
      (withMode 5 (.waitResponse a 15) State.reset).run = .running ∧
        (withMode 5 (.waitResponse a 15) State.reset).lanes[(5 : Fin 16)].mode = .waitResponse a 15 := by
  decide +kernel

/-! #### The wrap engine -/

/-- 4.9 and its variants, one for each clause: serving, an OPEN, class A at the third lane from the pointer, a share that
has come and a REWRAP alone, the last position of class B, nothing. -/
theorem witness_ArbiterChoosesFirstCase :
    wrapServing.engine.job ≠ none ∧ (peak.engine.job = none ∧ ({ peak.intake with queue := [[]] }).queue ≠ []) ∧
    (peak.engine.job = none ∧ peak.intake.queue = [] ∧ peak.lanes[laneOf (peak.engine.aPtr + 4)].pendingA = true ∧
      ∀ j, j < 4 → peak.lanes[laneOf (peak.engine.aPtr + j)].pendingA = false) ∧
    ((peakB 16 3).engine.job = none ∧ (peakB 16 3).intake.queue = [] ∧
      (∀ l : Fin 16, (peakB 16 3).lanes[l].pendingA = false) ∧ (peakB 16 3).keys.campaign ≠ none ∧
      (peakB 16 3).keys.usable = true ∧ (peakB 16 3).engine.share = (peakB 16 3).cfg.rewrapShare) ∧
    ((∀ pos, pos < 17 → ({ State.reset with keys := retiringKeys } : State).pendingB pos = false) ∧
      retiringKeys.campaign ≠ none ∧ retiringKeys.usable = true) ∧
    ((peakB 16 0).engine.share ≠ (peakB 16 0).cfg.rewrapShare ∧
      (peakB 16 0).pendingB (((peakB 16 0).engine.bPtr + 0) % 17) = true) ∧
    ((peakB 0 0).pendingB (((peakB 0 0).engine.bPtr + 4) % 17) = true ∧
      ∀ j, j < 4 → (peakB 0 0).pendingB (((peakB 0 0).engine.bPtr + j) % 17) = false) ∧
    (State.reset.engine.job = none ∧ State.reset.intake.queue = [] ∧
      (∀ l : Fin 16, State.reset.lanes[l].pendingA = false) ∧ State.reset.keys.campaign = none ∧
      ∀ pos, pos < 17 → State.reset.pendingB pos = false) := by decide +kernel

/-- A lane 3 WRAP due in class A or class B, and with exactly the room that it needs. -/
def dueWrap (kind : TxKind) (mode : Mode) (amount : Nat) : State :=
  withMode 3 (.queued (request kind mode 0 amount)) trade

/-- A store that leaves `n` slots free. -/
def tight (n : Nat) (s : State) : State := holding [{ entry 500 .held 0 with slots := 4096 - n }] s

/-- Class A, and class B with an exposure decision that just reaches the ceiling; 18 free slots for 2. -/
theorem witness_WrapTakeClaimsRecord :
    ((dueWrap .sale .online 1).run = .running ∧ (dueWrap .sale .online 1).due = some (.wrapA 3) ∧
      (dueWrap .sale .online 1).lanes[(3 : Fin 16)].mode = .queued (request .sale .online 0 1) ∧
      (tight 18 (dueWrap .sale .online 1)).KeyAndRoom (wrapKey .active 41 7) (2 + 16) 6) ∧
    (let s := { dueWrap .sale .offline 20000 with meter := 30000 };
      s.due = some (.wrapB 3) ∧ s.KeyAndRoom (wrapKey .active 41 7) (2 + 16) 6 ∧
      s.ExposureAccepts 0 20000 20000) := by
  unfold State.KeyAndRoom State.ExposureAccepts; decide +kernel

/-- The take's state for each of the five refusals: no key, a spent key, 17 free slots, floor, ceiling. -/
theorem witness_RefusedWrapTakeConsumesNothing :
    (dueWrap .sale .offline 20001).due = some (.wrapB 3) ∧
    ({ dueWrap .sale .offline 20001 with keys := KeyTable.cold } : State).RefusedFor 18 6 True 0 20001 .noKey ∧
    ({ dueWrap .sale .offline 20001 with keys := { activeKeys with useLimit := 7 } } : State).RefusedFor 18 6 True 0
      20001 .keySpent ∧
    (tight 17 (dueWrap .sale .offline 20001)).RefusedFor 18 6 True 0 20001 .storeFull ∧
    (dueWrap .sale .offline 20001).RefusedFor 18 6 True 0 20001 .floor ∧
    ({ dueWrap .sale .offline 20000 with meter := 30001 } : State).RefusedFor 18 6 True 0 20000 .ceiling := by
  refine ⟨by decide +kernel, ?_, ⟨wrapKey .active 41 7, ?_⟩, ⟨wrapKey .active 41 7, ?_⟩, ⟨wrapKey .active 41 7, ?_⟩,
    ⟨wrapKey .active 41 7, ?_⟩⟩
  · show ({ dueWrap .sale .offline 20001 with keys := KeyTable.cold } : State).keys.active = none
    decide +kernel
  all_goals try unfold State.KeyAndRoom
  all_goals decide +kernel

/-- A lane 3 advice of 15,000 due. -/
def dueAdvice : State := withMode 3 (.fallback ⟨9, 15000, 0, 0, false⟩) trade

/-- An advice with exactly 2 free slots, and one refused at the ceiling. -/
theorem witness_AdviseTakeClaimsAdviceOrRefuses :
    (dueAdvice.run = .running ∧ dueAdvice.due = some (.advise 3) ∧
      dueAdvice.lanes[(3 : Fin 16)].mode = .fallback ⟨9, 15000, 0, 0, false⟩ ∧
      (tight 2 dueAdvice).KeyAndRoom (wrapKey .active 41 7) 2 1 ∧ dueAdvice.ExposureAccepts 0 15000 15000) ∧
    ({ dueAdvice with meter := 37998 } : State).RefusedFor 2 1 True 0 15000 .ceiling := by
  refine ⟨?_, wrapKey .active 41 7, ?_⟩
  all_goals unfold State.KeyAndRoom
  all_goals try unfold State.ExposureAccepts
  all_goals decide +kernel

/-- Whether a command on a state answers a next state in which the engine serves a job. -/
def starts (c : Instr) (s : State) : Bool :=
  match exec c s with
  | .next t => t.engine.job.isSome
  | _ => false

/-- 10.10's keys at a limit that the next use reaches, for each take: a WRAP with NEXT alone, with NEXT and RETIRING and
without NEXT, an OFFLINE SALE, an ADVISE, a REWRAP and a CLOSE. -/
theorem witness_SpendingTakeRollsOrReports :
    (let s : State := { dueWrap .refund .offline 1 with keys := { rollKeys with useLimit := 600213 } };
      s.run = .running ∧ s.engine.job = none ∧ s.keys.active = some (wrapKey .active 41 600212) ∧
      600212 + 1 = s.keys.useLimit ∧ s.keys.find .next = some (wrapKey .next 42 0) ∧ s.keys.find .retiring = none ∧
      starts .takeWrap s = true) ∧
    (let s : State := { dueWrap .refund .offline 1 with keys := { retiringKeys with
        slots := retiringKeys.slots.set 2 (some (wrapKey .next 43 0)), highest := 43, useLimit := 1 } };
      s.keys.active = some (wrapKey .active 42 0) ∧ s.keys.find .next ≠ none ∧ s.keys.find .retiring ≠ none ∧
      starts .takeWrap s = true) ∧
    (let s : State := { dueWrap .sale .offline 20000 with keys := { activeKeys with useLimit := 8 } };
      s.keys.active = some (wrapKey .active 41 7) ∧ s.keys.find .next = none ∧ starts .takeWrap s = true) ∧
    starts .takeAdvise { dueAdvice with keys := { activeKeys with useLimit := 8 } } = true ∧
    starts .takeRewrap (holding threeEntries { State.reset with keys := { retiringKeys with useLimit := 1 } }) = true ∧
    starts .takeClose { trade with
      batch := batch98, keys := { activeKeys with useLimit := 8 } } = true := by decide +kernel

/-- 10.10 at its second step, with a HELD target and with a target that has been offered. -/
theorem witness_RewrapTakeStartsOrDrops :
    (let s := holding threeEntries { State.reset with keys := retiringKeys };
      s.run = .running ∧ s.due = some .rewrap ∧ s.keys.campaign = some 5010 ∧
      findEntry 5010 s.store.directory = some (entry 5010 .held 0) ∧ (entry 5010 .held 0).state = Prior.held.state ∧
      s.keys.find .retiring = some (wrapKey .retiring 41 600212) ∧ (entry 5010 .held 0).epoch = 41 ∧
      s.keys.active = some (wrapKey .active 42 0)) ∧
    (let s := holding threeEntries { State.reset with keys := { retiringKeys with campaign := some 5011 } };
      s.due = some .rewrap ∧ findEntry 5011 s.store.directory = some (entry 5011 (.offered 30) 0)) := by
  decide +kernel

theorem witness_CloseTakeCutsTheBatchOver :
    let s : State := { trade with batch := batch98, store := { Store.cold with counter := 1 } }
    s.run = .running ∧ s.due = some .close ∧ s.keys.active = some (wrapKey .active 41 7) := by decide +kernel

/-- 8.9 at its third step, with the held write and without. -/
theorem witness_OpenTakeFreesAnIntakePlace :
    let s : State := { State.reset with intake := { State.reset.intake with queue := [[1], [2], [3], [4]] } }
    s.run = .running ∧ s.due = some .opening ∧ s.up.held = none ∧
      (queued 3 (some ⟨.intake (intakeOf (zeros 64)), 50, false⟩) s).due = some .opening ∧
      (queued 3 (some ⟨.intake (intakeOf (zeros 64)), 50, false⟩) s).up.posted.length < 4 ∧
      (intakeOf (zeros 64)).words.length ≤ 64 ∧
      s.intake.queue.length + s.intake.claimed ≤ 4 := by decide +kernel

/-- 1.7 in service, own and orphaned, ONLINE and OFFLINE. -/
theorem witness_WrapCompletionCommitsRecord :
    (wrapServing.run = .running ∧ wrapServing.engine.job = some (.wrap wrapJob) ∧
      findEntry wrapJob.number wrapServing.store.directory = some { entry 20117 .writing 0 with slots := 3 } ∧
      wrapJob.request.slots ≤ 4096 ∧ Memory.wf wrapServing.store.ring = true ∧
      wrapServing.lanes[wrapJob.lane].generation = wrapJob.request.generation ∧
      wrapServing.lanes[wrapJob.lane].orphan = false ∧ wrapJob.request.mode = .online) ∧
    (withLane 5 { Lane.cold with generation := 38, orphan := true } wrapServing).lanes[wrapJob.lane].orphan = true := by
  decide +kernel

theorem witness_AdviceAndSummaryCompletionsCommit :
    (let j : AdviseJob := ⟨5, 0, 20117, 12800, 1, 0, 0x11, 41, 20131, 405⟩;
      let s : State := { holding [entry 20131 .writing 0] State.reset with
        engine := { State.reset.engine with job := some (.advise j) } };
      s.run = .running ∧ s.engine.job = some (.advise j) ∧
      findEntry j.number s.store.directory = some (entry 20131 .writing 0) ∧ Memory.wf s.store.ring = true ∧
      s.lanes[j.lane].generation = j.generation ∧ s.lanes[j.lane].orphan = false) ∧
    (closeServing.run = .running ∧ closeServing.engine.job = some (.close closeJob) ∧
      findEntry closeJob.number closeServing.store.directory = some { entry 88533 .writing 0 with slots := 7 } ∧
      Memory.wf closeServing.store.ring = true) := by decide +kernel

/-- 10.10's last REWRAP with no read held: its target, a target that an ACK has confirmed, no RETIRING key, and a
retiring count that stays above 0 or falls to 0, with and without a roll that waits for it. -/
theorem witness_RewrapCompletionRestoresTarget :
    (let s := rewrapServing none;
      s.run = .running ∧ s.engine.job = some (.rewrap ⟨5011, rewrapContent, 0x11, 0x11, 42⟩) ∧ s.up.held = none ∧
      s.lp.held = none ∧ findEntry 5011 s.store.directory = some (entry 5011 (.rewrapping .held) 0) ∧
      (entry 5011 (.rewrapping .held) 0).slots ≤ 4096 ∧ Memory.wf s.store.ring = true ∧
      rewrapContent.length = 32 * (entry 5011 (.rewrapping .held) 0).slots ∧
      48 + fieldAt rewrapContent 30 1 + fieldAt rewrapContent 31 1 ≤ 32 * (entry 5011 (.rewrapping .held) 0).slots ∧
      s.keys.find .retiring = some (wrapKey .retiring 41 600212) ∧ s.keys.pendingRoll = false ∧
      custodyCount 41 (updEntry 5011 (fun x => { x with state := .held, epoch := 42 }) s.store.directory) = 0) ∧
    (findEntry 5011 [entry 5011 .confirmed 0]).map Entry.state = some .confirmed ∧
    activeKeys.find .retiring = none ∧
    0 < custodyCount 41 (updEntry 5011 (fun x => { x with state := .held, epoch := 42 })
      [entry 5010 .held 0, entry 5011 (.rewrapping .held) 0]) ∧
    (retiringKeys.Retires [] ∧ ¬ retiringKeys.Retires threeEntries) ∧
    (waitingKeys.pendingRoll = true ∧ waitingKeys.find .retiring = some (wrapKey .retiring 41 600212) ∧
      waitingKeys.erased.active = some (wrapKey .active 42 9)) := by
  refine ⟨by decide +kernel, by decide +kernel, by decide +kernel, by decide +kernel,
    ⟨⟨wrapKey .retiring 41 600212, by decide +kernel⟩, fun ⟨w, h, h'⟩ => ?_⟩, by decide +kernel⟩
  cases (show some (wrapKey .retiring 41 600212) = some w from h)
  exact absurd h' (by decide +kernel)

theorem witness_RewrapCompletion_no_read_held :
    ∀ (p : PortId) (r : ReadRequest) (limit : Nat),
      ((rewrapServing none).port p).held ≠ some ⟨.read r, limit, true⟩ := by
  intro p r limit h
  cases p <;> exact absurd h (by simp [rewrapServing, State.port, State.reset, Port.cold])

/-- The REWRAP in service of 10.10's last target with these held at the ports, over a directory and a spill list, the low
slot mark as given. -/
def rewrapHolding (up lp : Option Held) (d : List Entry) (l : List SpillItem) (lowSlot : Nat) : State :=
  { rewrapServing up with
    lp := { Port.cold with held := lp }, store := storeOf d, spill := ⟨none, l⟩
    cfg := { Settings.cold with lowSlot := lowSlot } }

/-- An OFFER read that is held at the store. -/
def heldOffer : Held := ⟨.read ⟨.offer, 0, hdr⟩, 50, true⟩

/-- A SPILL read that is held at the store. -/
def heldSpill : Held := ⟨.read ⟨.spill, 0, hdr⟩, 50, true⟩

/-- The directory after the completion of that REWRAP. -/
def rewrapped (d : List Entry) : List Entry :=
  updEntry 5011 (fun x => { x with state := Prior.held.state, epoch := 42 }) d

/-- 10.10's target among others. -/
def rewrapTarget : Entry := entry 5011 (.rewrapping .held) 8500

/-- 10.10 at its ninth step with the OFFER read held, the SPILL read held and both; for the SPILL read: use at the low
mark and above it, an entry SPILLING, a candidate that is REWRAPPING, and a charged candidate with 256 and with 255
items. -/
theorem witness_HeldReadsAreAnsweredAtRewrapCompletion :
    (∀ up lp l n, ∀ d ∈ [[rewrapTarget], [entry 5010 .spilling 0, rewrapTarget], [entry 5010 (.rewrapping .held) 0,
        rewrapTarget], [{ rewrapTarget with state := .rewrapping .parked }]],
      let s := rewrapHolding up lp d l n
      s.run = .running ∧ s.engine.job = some (.rewrap ⟨5011, rewrapContent, 0x11, 0x11, 42⟩) ∧ s.up.held = up ∧
      s.lp.held = lp ∧ ∃ e p, findEntry 5011 s.store.directory = some e ∧ e.state = .rewrapping p) ∧
    (heldOffer = ⟨.read ⟨.offer, 0, hdr⟩, 50, true⟩ ∧ heldSpill = ⟨.read ⟨.spill, 0, hdr⟩, 50, true⟩) ∧
    (∀ r l, (none : Option Held) ≠ some ⟨.read r, l, true⟩) ∧
    (offeredCount (rewrapped [rewrapTarget]) < 8 ∧
      offerCandidate (rewrapped [rewrapTarget]) = some { entry 5011 .held 8500 with epoch := 42 }) ∧
    (((rewrapped [rewrapTarget]).map Entry.slots).sum = 2 ∧ (rewrapped [rewrapTarget]).length ≤ Settings.cold.lowEntry) ∧
    (∃ x ∈ rewrapped [entry 5010 .spilling 0, rewrapTarget], x.state = .spilling) ∧
    (rewrapped [rewrapTarget] = [] ++ { entry 5011 .held 8500 with epoch := 42 } :: [] ∧
      ∀ x ∈ rewrapped [rewrapTarget], x.state ≠ .spilling) ∧
    (rewrapped [entry 5010 (.rewrapping .held) 0, rewrapTarget] =
      [] ++ entry 5010 (.rewrapping .held) 0 :: [{ entry 5011 .held 8500 with epoch := 42 }]) ∧
    (256 ≤ (listOf 256).length ∧ (listOf 255).length < 256) := by
  refine ⟨?_, by decide +kernel, nofun, by decide +kernel, by decide +kernel, by decide +kernel, by decide +kernel,
    by decide +kernel, by decide⟩
  intro up lp l n d hd
  refine ⟨rfl, rfl, rfl, rfl, ?_⟩
  show ∃ e p, findEntry 5011 d = some e ∧ e.state = .rewrapping p
  simp only [List.mem_cons, List.not_mem_nil, or_false] at hd
  rcases hd with rfl | rfl | rfl | rfl <;> exact ⟨_, _, rfl, rfl⟩

/-- An opening without a key, under another epoch, and under the record's own epoch, with a forged limit of 0, above the
count, and reached by it. -/
theorem witness_RejectedOpeningsTouchOnlyTheIntake :
    (∀ key, (opening key State.reset).run = .running ∧
      (opening key State.reset).engine.job = some (.opening ⟨response84, key⟩)) ∧
    response84.length = 48 ∧ fieldAt response84 8 2 ≠ 7 ∧ fieldAt response84 8 2 = 6 ∧
    ({ Settings.cold with forgedLimit := 0 } : Settings).forgedLimit = 0 ∧
    min 255 (State.reset.intake.forged + 1) < State.reset.cfg.forgedLimit ∧
    (0 < ({ Settings.cold with forgedLimit := 1 } : Settings).forgedLimit ∧
      ({ Settings.cold with forgedLimit := 1 } : Settings).forgedLimit ≤ min 255 (State.reset.intake.forged + 1) ∧
      State.reset.intake.suspended = false) :=
  ⟨fun _ => ⟨rfl, rfl⟩, by decide +kernel⟩

/-- The state of an opening, with a lane that waits for its record and with lanes that do not. The cipher's outcome is
free: no state fixes it (log entry 7). -/
theorem witness_AuthenticResponseIsValidOrLate :
    (∀ s : State, s.run = .running → (opening (some ⟨0x22, 6, 0⟩) s).run = .running ∧
      (opening (some ⟨0x22, 6, 0⟩) s).engine.job = some (.opening ⟨response84, some ⟨0x22, 6, 0⟩⟩)) ∧
    response84.length = 48 ∧ fieldAt response84 8 2 = 6 ∧ fieldAt response84 4 1 = (1 : Fin 16).val ∧
    (withMode 1 (.waitResponse ⟨8190, 7, false, 1, 0⟩ 15) State.reset).lanes[(1 : Fin 16)].mode =
      .waitResponse ⟨8190, 7, false, 1, 0⟩ 15 ∧
    fieldAt response84 0 4 = 8190 ∧ fieldAt response84 5 3 = 7 ∧ State.reset.lanes[(1 : Fin 16)].mode = .idle :=
  ⟨fun _ h => ⟨h, rfl⟩, by decide +kernel⟩

/-! #### The record store and the spill unit -/

/-- Eight OFFERED entries, no candidate, an awaiting candidate behind an older one, the oldest of the rest, and a
REWRAPPING candidate. -/
theorem witness_OfferReadHandsOutTheCandidate :
    (State.reset.Open .up ∧ ∀ d, (holding d State.reset).Open .up) ∧
    8 ≤ offeredCount (List.replicate 8 (entry 1 (.offered 30) 0)) ∧
    (offeredCount (List.replicate 7 (entry 1 (.offered 30) 0)) < 8 ∧
      ∀ e ∈ List.replicate 7 (entry 1 (.offered 30) 0), ¬ (e.state = .held ∨ e.state = .rewrapping .held)) ∧
    ((∀ x ∈ [entry 1 .held 0], x.number ≠ 2) ∧ ({ entry 2 .held 0 with awaiting := true }).awaiting = true ∧
      ∀ x ∈ [entry 1 .held 0], ¬ ((x.state = .held ∨ x.state = .rewrapping .held) ∧ x.awaiting = true)) ∧
    ((∀ x ∈ [entry 1 .parked 0], x.number ≠ 2) ∧ (entry 2 (.rewrapping .held) 0).awaiting = false ∧
      (∀ x ∈ [entry 1 .parked 0], ¬ (x.state = .held ∨ x.state = .rewrapping .held)) ∧
      ∀ x ∈ [entry 3 .held 0], ¬ ((x.state = .held ∨ x.state = .rewrapping .held) ∧ x.awaiting = true)) :=
  ⟨⟨open_of (by decide), fun _ => open_of ⟨rfl, rfl, rfl⟩⟩, by decide +kernel⟩

/-- The last word of an OFFERED entry's slots, the first word after them, and index 4,096. -/
theorem witness_RingReadNeedsReadableSlots :
    (holding [entry 1 (.offered 30) 0] State.reset).Open .up ∧ (64 : Nat) ≤ 64 ∧
    ((3 : Word).toNat ≤ 4095 ∧ (15 : Word).toNat ≤ 15 ∧
      (entry 1 (.offered 30) 0).owns (((3 : Word).toNat * 16 + (15 : Word).toNat) / 16) = true) ∧
    (∀ e ∈ [entry 1 (.offered 30) 0], e.owns 4 = false) ∧ ¬ (4096 : Word).toNat ≤ 4095 :=
  ⟨open_of ⟨rfl, rfl, rfl⟩, by decide +kernel⟩

/-- 5.12's sixth record ACKed with nothing and with something to reclaim; a WRITING entry; a record on the spill list;
a number that nothing holds; the last custody entry of the RETIRING key, and no such key. -/
theorem witness_AckReleasesCharges :
    ((outageState outage).Applies .up (confirmWrite 0 hdr ackWord 1002 []) (outageState outage) ∧
      findEntry 1002 outage = some (placed (entry 1002 .held 1250) 4088 4) ∧
      (outage.takeWhile fun x => x.state.out) = []) ∧
    (findEntry 1001 outage).map Entry.state = some .held ∧
    ((findEntry 504 [entry 504 .writing 10000]).map Entry.state = some .writing) ∧
    ((spillState [entry 7400 .spilled 0] none [⟨6950, 4100, 1⟩, ⟨7400, 12000, 1⟩]).Applies .up
        (confirmWrite 0 hdr ackWord 7400 []) (spillState [entry 7400 .spilled 0] none
          [⟨6950, 4100, 1⟩, ⟨7400, 12000, 1⟩]) ∧
      (findEntry 7400 [entry 7400 .spilled 0]).map Entry.state = some .spilled ∧
      ∀ y ∈ [SpillItem.mk 6950 4100 1], y.number ≠ 7400) ∧
    findEntry 0 outage = none ∧
    (retiringKeys.Retires (updEntry 5010 (fun x => { x with state := .confirmed }) [entry 5010 .held 0]) ∧
      activeKeys.find .retiring = none) :=
  ⟨⟨applies_straight (by decide +kernel), by decide +kernel⟩, by decide +kernel, by decide +kernel,
    ⟨applies_straight (by decide +kernel), by decide +kernel⟩, by decide +kernel,
    ⟨wrapKey .retiring 41 600212, by decide +kernel⟩, by decide +kernel⟩

/-- An OFFERED entry one below the limit and at it, a PARKED entry, and a number that names none. -/
theorem witness_ReturnsParkAtTheAttemptLimit :
    (∀ command, (holding threeEntries State.reset).Applies .up (confirmWrite 0 hdr command 5011 [])
      (holding threeEntries State.reset)) ∧
    (holding threeEntries State.reset).run = .running ∧
    findEntry 5011 threeEntries = some (entry 5011 (.offered 30) 0) ∧
    (findEntry 5012 threeEntries).map Entry.state = some .parked ∧ findEntry 1 threeEntries = none :=
  ⟨fun _ => applies_straight ⟨rfl, rfl, by simp [confirmWrite, numberWords], rfl, rfl⟩, by decide +kernel⟩

/-- Use at the low mark and one above it, an entry SPILLING, no candidate, a REWRAPPING candidate, a charged candidate
with 255 and with 256 items. -/
theorem witness_SpillReadReservesTheOldestEntry :
    (∀ d l, (spillState d none l).Open .lp) ∧
    ¬ (State.reset.cfg.lowSlot < State.reset.store.slotsUsed ∨ State.reset.cfg.lowEntry < State.reset.store.entriesUsed) ∧
    (spillState [entry 1 .held 0] none []).cfg.lowSlot < (spillState [entry 1 .held 0] none []).store.slotsUsed ∧
    (∃ e ∈ [entry 1 .spilling 0], e.state = .spilling) ∧
    (∀ e ∈ [entry 1 (.offered 30) 0], e.state ≠ .spilling ∧ e.state ≠ .held ∧ e.state ≠ .parked ∧
      e.state.isRewrapping = false) ∧
    (entry 2 (.rewrapping .parked) 0).state = .rewrapping .parked ∧
    (0 < (entry 2 .held 8500).charge ∧ 256 ≤ (listOf 256).length ∧ (listOf 255).length < 256) :=
  ⟨fun _ _ => open_of ⟨rfl, rfl, rfl⟩, by decide +kernel, by decide +kernel, ⟨_, List.mem_singleton.mpr rfl, rfl⟩,
    by decide +kernel⟩

/-- A charge of 0, a charge that is appended, and a charge that is merged; an entry at the head and one behind it; the
last custody entry of the RETIRING key, and no such key. -/
theorem witness_SpillDoneMovesTheCharge :
    (∀ charge l, (spillState [entry 7400 .spilling charge] (some ⟨7400, true⟩) l).Applies .lp
        (spillWrite 0 hdr spillDoneWord 7400 []) (spillState [entry 7400 .spilling charge] (some ⟨7400, true⟩) l) ∧
      findEntry 7400 [entry 7400 .spilling charge] = some (entry 7400 .spilling charge)) ∧
    (entry 7400 .spilling 0).charge = 0 ∧ 0 < (entry 7400 .spilling 1).charge ∧
    (∀ x ∈ [SpillItem.mk 6950 4100 1], x.number ≠ 7400) ∧
    [SpillItem.mk 6950 4100 1, ⟨7400, 5, 1⟩] = [⟨6950, 4100, 1⟩] ++ ⟨7400, 5, 1⟩ :: [] ∧
    (((updEntry 7400 (fun x => { x with state := .spilled }) [entry 7400 .spilling 0]).takeWhile fun x => x.state.out)
        ≠ [] ∧
      ((updEntry 7400 (fun x => { x with state := .spilled }) [entry 7399 .held 0, entry 7400 .spilling 0]).takeWhile
        fun x => x.state.out) = []) ∧
    (retiringKeys.Retires (updEntry 7400 (fun x => { x with state := .spilled }) [entry 7400 .spilling 0]) ∧
      activeKeys.find .retiring = none) :=
  ⟨fun _ _ => ⟨applies_straight ⟨rfl, rfl, by decide, rfl, rfl⟩, rfl⟩, by decide, by decide, by decide, by decide,
    by decide +kernel, ⟨wrapKey .retiring 41 600212, by decide +kernel⟩, by decide +kernel⟩

/-- A LIVE, a GONE and an absent reservation. -/
theorem witness_SpillCommandsFollowTheReservation :
    (∀ d r command, (spillState d r []).Applies .lp (spillWrite 0 hdr command 7402 []) (spillState d r [])) ∧
    (findEntry 7402 [entry 7402 .spilling 8500] = some (entry 7402 .spilling 8500)) ∧
    (spillState [] (some ⟨7402, false⟩) []).spill.reservation = some ⟨7402, false⟩ ∧
    ∀ live, (spillState [] none []).spill.reservation ≠ some ⟨7402, live⟩ :=
  ⟨fun _ _ _ => applies_straight ⟨rfl, rfl, by simp [spillWrite, numberWords], rfl, rfl⟩, by decide +kernel,
    by decide +kernel, fun _ h => by cases h⟩

/-! #### Intake, shop commands and control items -/

/-- The last place of each queue, a full intake, and a write of 23 and of 24 words. -/
theorem witness_IntakeWriteClaimsThenQueuesRecord :
    ((queued 3 none { State.reset with intake := { State.reset.intake with queue := [[1], [2], [3]] } }).run = .running ∧
      (queued 3 none State.reset).up.held = none ∧ (queued 3 none State.reset).up.posted.length < 4 ∧
      [[1], [2], [3]].length + State.reset.intake.claimed < 4) ∧
    ¬ ([[1], [2], [3], [4]].length + State.reset.intake.claimed < 4) ∧
    (∀ n ∈ [23, 24, 64], let s : State := { State.reset with up := { Port.cold with posted := [intakeOf (zeros n)] } };
      s.run = .running ∧ s.up.held = none ∧ s.up.posted = ⟨intakeWindow, 0, hdr, zeros n⟩ :: []) ∧
    (zeros 23).length < 24 ∧ 24 ≤ (zeros 24).length ∧ (zeros 64).length ≤ 64 := by decide +kernel

theorem witness_ShopCommandsReachTheirBlocks :
    (∀ command, State.reset.Applies .up (shopWrite 0 hdr command []) State.reset) ∧
      State.reset.batch.closePending = false ∧ batch98.closePending = true :=
  ⟨fun _ => applies_straight ⟨rfl, rfl, by simp [shopWrite], rfl, rfl⟩, by decide⟩

/-- Runs one short of a threshold and at it (7.10, steps 3, 4 and 8), in DOUBT with one counted before it too. -/
theorem witness_RunsOfMissesAndSignsMoveTheLink :
    (1 ≤ 3 ∧ 2 ≠ 0 ∧ 2 < 3 ∧ ¬ 3 < 3) ∧ (1 + 1 < 3 ∧ ¬ 1 + 2 < 3) ∧ State.reset.link = ⟨.doubt, 0, 0⟩ := by decide

/-- A key RETIRING, no NEXT, a first activation, and a roll with no and with three custody entries. -/
theorem witness_RollActivatesTheNextKey :
    (∀ k d, (holding d { State.reset with keys := k }).Applies .up (shopWrite 0 hdr rollWord [])
      (holding d { State.reset with keys := k })) ∧
    retiringKeys.find .retiring ≠ none ∧ (activeKeys.find .retiring = none ∧ activeKeys.find .next = none) ∧
    (rollKeys.find .retiring = none ∧ rollKeys.find .next = some (wrapKey .next 42 0) ∧
      rollKeys.active = some (wrapKey .active 41 600212)) ∧
    ({ rollKeys with slots := rollKeys.slots.set 0 none }).active = none ∧
    custodyCount 41 [] = 0 ∧ 0 < custodyCount 41 threeEntries :=
  ⟨fun _ _ => applies_straight ⟨rfl, rfl, by decide, rfl, rfl⟩, by decide +kernel⟩

/-- Three words and four; an ARMED flag with use at and one below the high mark. -/
theorem witness_WatermarksAreClampedAndEvaluated :
    (∀ n, n ≤ 64 → State.reset.Applies .up ⟨watermarksItem, 0, hdr, zeros n⟩ State.reset) ∧
      (zeros 3).length < 4 ∧ zeros 4 = fullWord 0 :: fullWord 0 :: fullWord 0 :: fullWord 0 :: [] ∧
      State.reset.store.armed = true :=
  ⟨fun n h => applies_straight ⟨rfl, rfl, by simpa [zeros] using h, rfl, rfl⟩, by decide⟩

/-- One word and two; no ACTIVE key; 7 uses under limits of 7 and 8 (both at the wear point or past it) and 9. -/
theorem witness_UseLimitDecidesWearAndSpending :
    (∀ s : State, s.run = .running → s.up = Port.cold →
      s.Applies .up ⟨useLimitItem, 0, hdr, [fullWord 0, fullWord 7]⟩ s) ∧
    (zeros 1).length < 2 ∧ KeyTable.cold.active = none ∧ activeKeys.active = some (wrapKey .active 41 7) ∧
    (max 1 (min 1048576 ((0 : Word).toNat * 65536 + (7 : Word).toNat)) = 7 ∧ 7 - 7 / 16 ≤ 7) ∧
    (7 < 9 - 9 / 16 ∧ 7 < 8) ∧ (activeKeys.find .next = none ∧ 7 < activeKeys.useLimit) ∧
    (retiringKeys.find .retiring ≠ none ∧ rollKeys.find .next ≠ none) ∧
    (rollKeys.find .next = some (wrapKey .next 42 0) ∧ rollKeys.find .retiring = none ∧
      rollKeys.active = some (wrapKey .active 41 600212) ∧ 600212 < rollKeys.useLimit) ∧
    ({ wrapKey .active 41 7 with wear := true }).wear = true :=
  ⟨fun _ h1 h2 => applies_straight ⟨h1, by simp [State.port, h2, Port.cold], by decide,
    by simp [State.port, h2, Port.cold], by simp [State.port, h2, Port.cold]⟩, by decide +kernel⟩

/-- A ceiling and a risk row with too few words and with exactly enough. -/
theorem witness_ConfigurationIsStoredInRange :
    ∀ (item : ConfigItem) (n : Nat), n ≤ 3 →
      State.reset.Applies .up ⟨configTarget item, configIndex item 0, hdr, zeros n⟩ State.reset :=
  fun _ n h => applies_straight ⟨rfl, rfl, by simp [zeros]; omega, rfl, rfl⟩

/-- No word, one word and two words, on each port. -/
theorem witness_PortItemsAreClearedAndReplaced :
    ∀ (p : PortId) (target : Target) (n : Nat), n ≤ 2 →
      State.reset.Applies p ⟨target, portIndex p, hdr, zeros n⟩ State.reset :=
  fun p _ n h => applies_straight ⟨rfl, by cases p <;> rfl, by simp [zeros]; omega, by cases p <;> rfl, by cases p <;> rfl⟩

/-- The codes 0 and 10 of the data space and 0 and 26 of the control space name nothing; lane 16 is out of range; OFFER
and the ceiling are not the lane port's to read and to write; what the tables admit. -/
theorem witness_HeadersAreRefusedByTheTables :
    (∀ p, State.reset.run = .running ∧ (State.reset.port p).held = none) ∧
    (∀ c ∈ [0, 10], ¬ (1 ≤ (BitVec.ofNat 5 c).toNat ∧ (BitVec.ofNat 5 c).toNat ≤ 9)) ∧
    (∀ c ∈ [0, 26], ¬ (1 ≤ (BitVec.ofNat 5 c).toNat ∧ (BitVec.ofNat 5 c).toNat ≤ 25)) ∧
    decoderRefusal .lp .write false 2 16 = some .badWindow ∧ decoderRefusal .lp .read false 6 0 = some .denied ∧
    decoderRefusal .lp .write true 0x0F 0 = some .denied ∧ decoderRefusal .up .write true 0x10 7 = none ∧
    decoderRefusal .lp .read true 0x03 15 = none ∧ decoderRefusal .lp .read true 0x03 16 = some .badWindow ∧
    (State.reset.port .lp).posted = [] :=
  ⟨fun p => by cases p <;> decide, by decide +kernel⟩

theorem witness_ExpiredHoldLeavesNoTrace :
    (∀ (p : PortId) (kind : HeldKind), let s := if p = .lp then
          { State.reset with lp := { Port.cold with held := some ⟨kind, 50, false⟩ } }
        else { State.reset with up := { Port.cold with held := some ⟨kind, 50, false⟩ } }
      s.run = .running ∧ (s.port p).held = some ⟨kind, 50, false⟩) ∧ filler.words.length ≤ 64 :=
  ⟨fun p kind => by cases p <;> exact ⟨rfl, rfl⟩, by decide⟩

/-! #### The key line, resets and power -/

/-- Each receiver state; a length of 65 and of 64, a CRC that fails, an unknown command, and DISCARD_NEXT with a byte. -/
theorem witness_KeyLineAnswersEveryCompleteFrame :
    State.reset.run = .running ∧ State.reset.keyLine = .hunt ∧ (listening State.reset).keyLine = .receiving [] ∧
    (64 < (65 : Byte).toNat ∧ (64 : Byte).toNat ≤ 64) ∧
    (bytesOfWord (crc [0x12, 0]) ≠ [0, 0] ∧ ([] : List Byte).length = (0 : Byte).toNat) ∧
    (bytesOfWord (crc [0x13, 0]) = [(crc [0x13, 0]).extractLsb' 8 8, (crc [0x13, 0]).extractLsb' 0 8] ∧
      payloadSize 0x13 = none) ∧
    (bytesOfWord (crc [0x12, 1, 0]) = [(crc [0x12, 1, 0]).extractLsb' 8 8, (crc [0x12, 1, 0]).extractLsb' 0 8] ∧
      payloadSize 0x12 = some 0 ∧ ([0] : List Byte).length ≠ 0) := by decide +kernel

/-- A key whose check value agrees and one whose does not, with and without a transport key; a NEXT loaded; the least
epoch that is accepted and the largest that is not; the role bytes 0 and 3; an ACTIVE key that is spent, with and
without a RETIRING key. -/
theorem witness_KeyLoadsPassTheirTests :
    (listening State.reset).run = .running ∧ (listening State.reset).keyLine = .receiving [] ∧
    State.reset.keys.transport = none ∧
    ({ KeyTable.cold with transport := some ⟨1, 2⟩ } : KeyTable).transport = some ⟨1, 2⟩ ∧
    (∀ key : Key, checkValueOf key = checkValueOf key ∧ checkValueOf key ≠ checkValueOf key + 1) ∧
    ((0 : Byte) ≠ 1 ∧ (0 : Byte) ≠ 2 ∧ (3 : Byte) ≠ 1 ∧ (3 : Byte) ≠ 2) ∧
    rollKeys.find .next ≠ none ∧ (activeKeys.find .next = none ∧ activeKeys.highest = 41 ∧
      (41 : BitVec 16).toNat ≤ 41 ∧ 41 < (42 : BitVec 16).toNat) ∧ activeKeys.activeSpent = false ∧
    (activeKeys.slots[(1 : Fin 3)] = none ∧ ∀ k : Fin 3, k < 1 → activeKeys.slots[k] ≠ none) ∧
    (let k : KeyTable := { activeKeys with useLimit := 7 };
      k.find .next = none ∧ k.activeSpent = true ∧ k.find .retiring = none ∧ k.active = some (wrapKey .active 41 7) ∧
      k.slots[(1 : Fin 3)] = none ∧ k.slots[(0 : Fin 3)] ≠ none) ∧
    (let k : KeyTable := { waitingKeys with slots := waitingKeys.slots.set 2 none };
      k.find .next = none ∧ k.activeSpent = true ∧ k.find .retiring ≠ none ∧ k.slots[(2 : Fin 3)] = none ∧
      ∀ i : Fin 3, i < 2 → k.slots[i] ≠ none) :=
  ⟨by decide, by decide, by decide, by decide, fun key => ⟨rfl, fun h => by
    have h' := congrArg BitVec.toNat h
    simp only [BitVec.toNat_add] at h'
    have := (checkValueOf key).isLt
    simp at h'
    omega⟩, by decide +kernel⟩

/-- No NEXT and a NEXT, in a part that has an identity and in one that has none. -/
theorem witness_ShopSettingsAndDiscard :
    (listening State.reset).run = .running ∧ (listening State.reset).keyLine = .receiving [] ∧
    activeKeys.find .next = none ∧ rollKeys.find .next ≠ none ∧ State.reset.keys.identity = 0 ∧
    ({ KeyTable.cold with identity := 1 }).identity ≠ 0 ∧
    (∀ i : Fin 15, (Vector.replicate 15 (⟨.unset, false⟩ : PolicyEntry))[i].required =
      ((Vector.replicate 15 (0 : Byte))[i]).getLsbD 7) ∧ 3 < (4 : Byte).toNat := by decide +kernel

/-- 7.7 in the service of record 504, with nothing older in the directory; a close, a rewrap and an opening in service. -/
theorem witness_ResetAbandonsTheJobInService :
    let j := { wrapJob with number := 504 }
    let s : State := { trade with
      meter := 28000, engine := { State.reset.engine with job := some (.wrap j) }
      store := { storeOf [entry 504 .writing 10000] with counter := 505 } }
    s.run = .running ∧ s.engine.job = some (.wrap j) ∧ s.store.directory = [] ++ [entry 504 .writing 10000] ∧
      (entry 504 .writing 10000).number = j.number ∧ (entry 504 .writing 10000).state = .writing ∧
    (closeServing.run = .running ∧ ∃ j e, closeServing.engine.job = some (.close j) ∧
      closeServing.store.directory = [] ++ [e] ∧ e.number = j.number ∧ e.state = .writing) ∧
    ∀ job, ({ s with engine := { s.engine with job := some job } } : State).run = .running :=
  ⟨by decide +kernel, by decide +kernel, by decide +kernel, by decide +kernel, by decide +kernel,
    ⟨by decide +kernel, _, _, rfl, rfl, by decide +kernel, by decide +kernel⟩, fun _ => rfl⟩

/-- A part without and with a RETIRING key, whose campaign then names 5,010. -/
theorem witness_WarmResetKeepsRetainedState :
    (trade.run = .running ∧ trade.engine.job = none ∧ trade.keys.find .retiring = none) ∧
      retiringKeys.find .retiring = some (wrapKey .retiring 41 600212) ∧
      campaignTarget 41 threeEntries = some 5010 := by decide +kernel

theorem witness_PowerUpReadsTheRetentionMarker :
    trade.run = .running ∧ trade.resetInput = false ∧ trade.marker = true := by decide

/-- An answer that is being sent, and the job in service of 7.7. -/
theorem witness_TamperZeroisesTheKeys :
    trade.engine.job = none ∧ (sendingState.port .lp).sending = true ∧
      (sendingState.port .lp).answer = some ⟨.ok, 0x15, [1, 2]⟩ ∧
      (let s := holding [entry 504 .writing 10000] trade;
        s.store.directory = [] ++ [entry 504 .writing 10000] ∧ (entry 504 .writing 10000).number = 504) := by
  decide +kernel

/-- The invariants after a cold start, and in a part that carries charges, keys and a REWRAPPING entry. -/
theorem witness_invariants :
    State.reset.MeterBalanced ∧ State.reset.StoreFits ∧ State.reset.keys.Ordered ∧ State.reset.Regular ∧
      (spillState [entry 7402 .held 8500, entry 7400 .spilled 0] none [⟨7400, 12000, 1⟩]).MeterBalanced ∧
      (outageWith [.held, .held, .offered 30, .confirmed, .held, .held]).StoreFits ∧ step trade = .next trade := by
  refine ⟨?_, ?_, ?_, ?_, ?_, ?_, rfl⟩
  · unfold State.MeterBalanced; decide
  · unfold State.StoreFits; decide
  · have none_loaded : ∀ i : Fin 3, State.reset.keys.slots[i] = none := by decide
    exact fun i v h => by rw [none_loaded i] at h; cases h
  · unfold State.Regular Settings.InRange Link.Consistent Port.Sound; decide
  · unfold State.MeterBalanced; decide
  · unfold State.StoreFits; decide +kernel

/-- The keys of 10.10 after the roll are in order. -/
theorem witness_key_order : retiringKeys.Ordered := by
  have h : ∀ i : Fin 3, ∀ v ∈ retiringKeys.slots[i], v.epoch ≤ retiringKeys.highest ∧ ∀ j : Fin 3, i ≠ j →
      ∀ w ∈ retiringKeys.slots[j], v.role ≠ w.role ∧ (v.role.rank < w.role.rank → v.epoch < w.epoch) := by
    decide +kernel
  exact fun i v hv => ⟨(h i v hv).1, fun j hj w hw => (h i v hv).2 j hj w hw⟩

end Sys2Proof.Tests
end

section
/-! PROOFS. The online timer's expiry (R17). -/

namespace Sys2Proof.Machine

/-! ### Posting as the statements spell it, and the command at a running part -/

theorem State.post_eq_updPort_signalled (s : State) (p : PortId) (e : Event) :
    s.post p e = s.updPort p fun q => q.signalled e := rfl

theorem exec_onlineTimerExpiry {s : State} (lane : Fin 16) (h : s.run = .running) :
    exec (.onlineTimerExpiry lane) s = .next (timerEffect lane s) :=
  congrArg Host.Outcome.next (whenRunning_of_running h _)

/-! ### The expiry of a waiting lane's timer -/

section
variable {lane : Fin 16} {s : State} {a : Awaited} {timer : Nat}

/-- The path to FALLBACK: the advice request carries the generation that the lane has then. -/
theorem timerEffect_fallback (hmode : s.lanes[lane].mode = .waitResponse a timer) (hfall : a.fallback = true) :
    timerEffect lane s = (s.clearAwaiting a.number).linkMiss.updLane lane fun x =>
      { x with mode := .fallback (adviceFor a x.generation) } := by
  simp only [timerEffect, hmode, hfall, if_true]

/-- The path to IDLE with NO_ANSWER, an outcome that sets the attention bit and posts LANE. -/
theorem timerEffect_noAnswer (hmode : s.lanes[lane].mode = .waitResponse a timer) (hfall : a.fallback = false) :
    timerEffect lane s = (s.clearAwaiting a.number).linkMiss.laneOutcome lane fun x =>
      { x with mode := .idle, result := .noAnswer a.number } := by
  simp only [timerEffect, hmode, hfall, Bool.false_eq_true, if_false]

end

/-- Settles O17: the awaited record's fallback flag chooses between the two paths of R17. -/
theorem timerExpiryFallsBackOrGivesUp : Obligations.TimerExpiryFallsBackOrGivesUp := by
  intro lane s a timer hrun hmode
  rw [exec_onlineTimerExpiry lane hrun]
  refine ⟨fun hfall => ?fallback, fun hfall => ?noAnswer⟩
  case fallback =>
    rw [timerEffect_fallback hmode hfall]
    simp only [State.clearAwaiting, adviceFor]
  case noAnswer =>
    rw [timerEffect_noAnswer hmode hfall]
    simp only [State.laneOutcome, State.post_eq_updPort_signalled, State.clearAwaiting]

end Sys2Proof.Machine
end

section
/-! PROOFS. The record checks' completeness (R28) and the class resolution of a request's fields (R37). -/

namespace Sys2Proof.Machine

/-! ### Which bytes check 1 reads -/

/-- A range of marks within the buffer is all WRITTEN exactly when no position in it is UNWRITTEN. -/
theorem allWritten_iff (written : Vector Bool 128) {i n : Nat} (h : i + n ≤ 128) :
    allWritten written i n = true ↔ ∀ j : Fin 128, i ≤ j.val → j.val < i + n → written[j] = true := by
  simp only [allWritten, List.all_eq_true, List.mem_range]
  constructor
  · intro all j hij hjn
    have hj := all (j.val - i) (by omega)
    rwa [Nat.add_sub_cancel' hij, Vector.getElem?_eq_getElem j.isLt] at hj
  · intro all k hk
    rw [Vector.getElem?_eq_getElem (show i + k < 128 by omega)]
    exact all ⟨i + k, by omega⟩ (Nat.le_add_right i k) (Nat.add_lt_add_left hk i)

theorem headLength_eq (buf : Vector Byte 128) : headLength buf = (buf[5] : Byte).toNat := by
  rw [headLength, byteAt, Vector.getElem?_eq_getElem (by decide), Option.getD_some]

/-- Check 1 reads a position: it is in the head, or within a declared length of 16 to 128 (R28). -/
def ReadByCheckOne (buf : Vector Byte 128) (i : Nat) : Prop :=
  i < 16 ∨ (16 ≤ headLength buf ∧ headLength buf ≤ 128 ∧ i < headLength buf)

/-- The two parts of check 1 together read each of these positions, and no other. -/
theorem complete_iff (buf : Vector Byte 128) (written : Vector Bool 128) :
    complete buf written = true ↔ ∀ i : Fin 128, ReadByCheckOne buf i.val → written[i] = true := by
  rw [complete, Bool.and_eq_true, Bool.or_eq_true, Bool.not_eq_true', decide_eq_false_iff_not,
    allWritten_iff written (by decide)]
  constructor
  · rintro ⟨head, list⟩ i (hi | ⟨hlo, hhi, hi⟩)
    · exact head i (Nat.zero_le _) (by omega)
    · have rest := (allWritten_iff written (by omega)).mp (list.resolve_left (not_not_intro ⟨hlo, hhi⟩))
      rcases Nat.lt_or_ge i.val 16 with h16 | h16
      · exact head i (Nat.zero_le _) (by omega)
      · exact rest i h16 (by omega)
  · intro all
    refine ⟨fun i _ hi => all i (.inl (by omega)), ?list⟩
    case list =>
      by_cases hlen : 16 ≤ headLength buf ∧ headLength buf ≤ 128
      · exact .inr <| (allWritten_iff written (by omega)).mpr fun i _ hi =>
          all i (.inr ⟨hlen.1, hlen.2, by omega⟩)
      · exact .inl hlen

/-! ### What the later checks can answer -/

section
variable {buf : Vector Byte 128} {written : Vector Bool 128} {policy : Vector PolicyEntry 15} {link : LinkState}
  {generation : Nat}

/-- A request is frozen with its fields' effective classes, and checks 3 to 7 never give INCOMPLETE. -/
theorem freezeFields_cases (kind : TxKind) (mode : Mode) (cardClass : Fin 8) (fields : List Field) :
    (∃ c, freezeFields buf policy link generation kind mode cardClass fields = .error c ∧ c ≠ .incomplete) ∨
      ∃ r, freezeFields buf policy link generation kind mode cardClass fields = .ok r ∧
        r.classes = fields.map (effectiveClass policy) := by
  simp only [freezeFields]
  split
  · exact .inl ⟨.badFormat, rfl, by decide⟩
  split
  · exact .inl ⟨.badAmount, rfl, by decide⟩
  split
  · exact .inl ⟨.badField, rfl, by decide⟩
  split
  · exact .inl ⟨.missingField, rfl, by decide⟩
  cases frozenMode link mode (headFallback buf) with
  | none => exact .inl ⟨.noContact, rfl, by decide⟩
  | some m => exact .inr ⟨_, rfl, rfl⟩

/-- What the checks answer for a complete record: BAD_FORMAT from the head or the field list, or what checks 3 to 7
answer on the field list. -/
theorem recordChecks_of_complete (h : complete buf written = true) :
    recordChecks buf written policy link generation = .error .badFormat ∨
      ∃ kind mode cardClass fields, fieldList buf = some fields ∧
        recordChecks buf written policy link generation =
          freezeFields buf policy link generation kind mode cardClass fields := by
  simp only [recordChecks, h, Bool.not_true, Bool.false_eq_true, if_false]
  split
  · exact .inl rfl
  split
  · next kind mode cardClass fields _ _ _ _ hfields => exact .inr ⟨kind, mode, cardClass, fields, hfields, rfl⟩
  · exact .inl rfl

theorem recordChecks_of_not_complete (h : complete buf written = false) :
    recordChecks buf written policy link generation = .error .incomplete := by
  simp only [recordChecks, h, Bool.not_false, if_true]

/-- INCOMPLETE is check 1's alone. -/
theorem recordChecks_eq_incomplete_iff :
    recordChecks buf written policy link generation = .error .incomplete ↔ complete buf written = false := by
  refine ⟨fun hinc => ?_, recordChecks_of_not_complete⟩
  refine Bool.eq_false_iff.mpr fun hc => ?_
  rcases recordChecks_of_complete hc with hbad | ⟨kind, mode, cardClass, fields, -, hfreeze⟩
  · cases hbad.symm.trans hinc
  · rcases freezeFields_cases kind mode cardClass fields with ⟨c, herr, hne⟩ | ⟨r, hok, -⟩
    · cases herr.symm.trans (hfreeze.symm.trans hinc)
      exact hne rfl
    · cases hok.symm.trans (hfreeze.symm.trans hinc)

/-- A frozen request carries the effective classes of the record's field list. -/
theorem classes_of_recordChecks_ok {r : WrapRequest}
    (hok : recordChecks buf written policy link generation = .ok r) :
    ∃ fields, fieldList buf = some fields ∧ r.classes = fields.map (effectiveClass policy) := by
  cases hc : complete buf written with
  | false => cases (recordChecks_of_not_complete hc).symm.trans hok
  | true =>
    rcases recordChecks_of_complete hc with hbad | ⟨kind, mode, cardClass, fields, hfields, hfreeze⟩
    · cases hbad.symm.trans hok
    · refine ⟨fields, hfields, ?_⟩
      rcases freezeFields_cases kind mode cardClass fields with ⟨c, herr, -⟩ | ⟨r', hok', hclasses⟩
      · cases herr.symm.trans (hfreeze.symm.trans hok)
      · cases hok'.symm.trans (hfreeze.symm.trans hok)
        exact hclasses

end

/-! ### Class resolution -/

theorem bits_moreProtective (a b : FieldClass) : (moreProtective a b).bits = max a.bits b.bits := by
  unfold moreProtective
  split
  · next hlt => exact (Nat.max_eq_right (Nat.le_of_lt hlt)).symm
  · next hge => exact (Nat.max_eq_left (Nat.le_of_not_lt hge)).symm

/-- Field code `c + 1` has policy entry `c` (R34). -/
theorem policyFor_of_code (policy : Vector PolicyEntry 15) {code : Nat} {c : Fin 15} (h : code = c.val + 1) :
    policyFor policy code = policy[c] := by
  subst h
  rw [policyFor, Nat.add_sub_cancel, Vector.getElem?_eq_getElem c.isLt, Option.getD_some]
  rfl

/-- Settles O11: only check 1 answers INCOMPLETE, and it reads exactly these positions. -/
theorem unwrittenByteMakesRecordIncomplete : Obligations.UnwrittenByteMakesRecordIncomplete := by
  intro buf written policy link generation
  rw [recordChecks_eq_incomplete_iff, ← Bool.not_eq_true, complete_iff]
  simp only [ReadByCheckOne, headLength_eq, Classical.not_forall, Bool.not_eq_true, exists_prop]
  exact exists_congr fun i => and_comm

/-- Settles O13: the shop class is the code's policy entry's, with UNSET as WRAP. -/
theorem effectiveClassIsMoreProtective : Obligations.EffectiveClassIsMoreProtective := by
  refine ⟨fun policy f c hcode => ?resolved, fun _ _ _ _ _ _ => classes_of_recordChecks_ok⟩
  case resolved =>
    rw [effectiveClass, bits_moreProtective, policyFor_of_code policy hcode]
    cases policy[c].shopClass <;> rfl

end Sys2Proof.Machine
end

section
/-! PROOFS. The cold start (R105): the record store, and the cold start columns of the other blocks. -/

namespace Sys2Proof.Machine

/-- Nothing is listed of the ring after a cold start, so every byte reads 0x00. -/
theorem reset_ring_read (a : Nat) : Memory.read State.reset.store.ring a = 0 := rfl

theorem reset_lane (l : Fin 16) : State.reset.lanes[l] = Lane.cold :=
  Vector.getElem_replicate l.isLt

theorem reset_policy (c : Fin 15) : State.reset.policy[c] = ⟨.unset, false⟩ :=
  Vector.getElem_replicate c.isLt

theorem reset_port (p : PortId) : State.reset.port p = Port.cold := by
  cases p <;> rfl

/-- Settles O3: the ring, each lane, each policy entry and each port by its lemma, every other item as `State.reset` lists
it. -/
theorem coldStartSetsEveryItem : Obligations.ColdStartSetsEveryItem :=
  ⟨reset_ring_read, rfl, rfl, rfl, rfl, rfl, rfl,
    rfl, rfl, rfl, rfl, rfl, rfl,
    rfl, rfl, reset_lane, reset_policy, rfl, rfl, rfl, rfl, rfl, rfl, rfl, rfl,
    fun p => reset_port p ▸ ⟨rfl, rfl, rfl, rfl, rfl, rfl⟩,
    rfl, rfl, rfl, rfl, rfl, rfl, rfl, rfl⟩

end Sys2Proof.Machine
end

section
/-! PROOFS. What returns an OFFERED entry and what unparks a PARKED one: NAK, the offer timer's expiry and UNPARK (R98 to
R100). -/

namespace Sys2Proof.Machine

theorem EntryState.isOffered_iff (st : EntryState) : st.isOffered = true ↔ ∃ timer, st = .offered timer := by
  cases st <;> simp [EntryState.isOffered]

/-! ### The return of an OFFERED entry -/

/-- The event of a return (R98): PARKED at the attempt limit, OFFER_READY below it. -/
def returnEvent (limit attempts : Nat) : Event :=
  if limit ≤ raisedAttempts attempts then .parked else .offerReady

/-- A return changes the entry, posts its event and lets the campaign look over the directory that it leaves (R167). -/
theorem returnEntry_eq (e : Entry) (s : State) :
    returnEntry e s = { s with
      store := s.store.updEntry e.number fun x => x.returned s.cfg.attemptLimit
      keys := { s.keys with
        campaign := s.keys.lookedOver (updEntry e.number (fun x => x.returned s.cfg.attemptLimit) s.store.directory) }
      up := s.up.signalled (returnEvent s.cfg.attemptLimit e.attempts) } := by
  rw [returnEntry, ← apply_ite (State.post _ .up), State.campaignLook_lookedOver]
  rfl

/-! ### The effects, by the entry that the number names -/

section
variable {index : Word} {hdr : Header} {n : Nat} {s : State}

theorem nakEffect_offered {e : Entry} {timer : Nat} (hfind : findEntry n s.store.directory = some e)
    (hoff : e.state = .offered timer) : nakEffect index hdr n s = returnEntry e s := by
  simp only [nakEffect, hfind, hoff, EntryState.isOffered, if_true]

theorem offerTimerEffect_offered {e : Entry} {timer : Nat} (hfind : findEntry n s.store.directory = some e)
    (hoff : e.state = .offered timer) : offerTimerEffect n s = returnEntry e s := by
  simp only [offerTimerEffect, hfind, hoff, EntryState.isOffered, if_true]

theorem nakEffect_not_offered
    (hnot : ∀ (e : Entry) (timer : Nat), findEntry n s.store.directory = some e → e.state ≠ .offered timer) :
    nakEffect index hdr n s = s.recordRefusal .up confirmWindow index hdr .notOffered := by
  unfold nakEffect
  split
  case h_1 e hfind =>
    refine if_neg fun hoff => ?_
    obtain ⟨timer, hstate⟩ := (EntryState.isOffered_iff _).mp hoff
    exact hnot e timer hfind hstate
  case h_2 => rfl

theorem unparkEffect_parked {e : Entry} (hfind : findEntry n s.store.directory = some e) (hpark : e.state = .parked) :
    unparkEffect index hdr n s =
      (s.updStore fun st => st.updEntry n fun x => { x with state := .held, attempts := 0 }).post .up .offerReady := by
  simp only [unparkEffect, hfind, hpark, if_true]

theorem unparkEffect_not_parked (hnot : ∀ e, findEntry n s.store.directory = some e → e.state ≠ .parked) :
    unparkEffect index hdr n s = s.recordRefusal .up confirmWindow index hdr .notParked := by
  unfold unparkEffect
  split
  case h_1 e hfind => exact if_neg (hnot e hfind)
  case h_2 => rfl

end

/-! ### The commands, when their effect is made -/

theorem nakEffect_held (index : Word) (hdr : Header) (n : Nat) (s : State) :
    ((nakEffect index hdr n s).port .up).held = (s.port .up).held := by
  unfold nakEffect
  split
  case h_1 =>
    split
    · rw [returnEntry_eq]
      rfl
    · exact State.recordRefusal_held ..
  case h_2 => exact State.recordRefusal_held ..

theorem unparkEffect_held (index : Word) (hdr : Header) (n : Nat) (s : State) :
    ((unparkEffect index hdr n s).port .up).held = (s.port .up).held := by
  unfold unparkEffect
  split
  case h_1 =>
    split
    · exact State.post_held ..
    · exact State.recordRefusal_held ..
  case h_2 => exact State.recordRefusal_held ..

section
variable {index : Word} {hdr : Header} {number : BitVec 32} {extra : List DataWord} {s s' : State}

theorem exec_nak_of_applies (h : s.Applies .up (confirmWrite index hdr nakWord number extra) s') :
    exec (.nak .apply index hdr number extra) s = .next (nakEffect index hdr number.toNat s') :=
  congrArg Host.Outcome.next (State.portWrite_of_applies h (nakEffect_held ..))

theorem exec_unpark_of_applies (h : s.Applies .up (confirmWrite index hdr unparkWord number extra) s') :
    exec (.unpark .apply index hdr number extra) s = .next (unparkEffect index hdr number.toNat s') :=
  congrArg Host.Outcome.next (State.portWrite_of_applies h (unparkEffect_held ..))

theorem exec_offerTimerExpiry_of_running (h : s.run = .running) :
    exec (.offerTimerExpiry number) s = .next (offerTimerEffect number.toNat s) :=
  congrArg Host.Outcome.next (whenRunning_of_running h _)

end

/-- Settles O35: NAK and the timer return an OFFERED entry in one way; NAK and UNPARK are refused in any other state than
theirs. -/
theorem returnsParkAtTheAttemptLimit : Obligations.ReturnsParkAtTheAttemptLimit := by
  intro index hdr number extra s s'
  refine ⟨fun e timer hfind hoff => ⟨fun happ => ?nak, fun hrun => ?timer⟩, fun hnot happ => ?notOffered,
    fun happ => ⟨fun e hfind hpark => ?unpark, fun hnot => ?notParked⟩⟩
  case nak =>
    obtain ⟨-, -, -, hstore, -, hcfg, hkeys, -⟩ := happ.fields
    rw [exec_nak_of_applies happ, nakEffect_offered (hstore ▸ hfind) hoff, returnEntry_eq,
      ← hstore, ← hcfg, ← hkeys]
    rfl
  case timer =>
    rw [exec_offerTimerExpiry_of_running hrun, offerTimerEffect_offered hfind hoff, returnEntry_eq]
    rfl
  case notOffered =>
    obtain ⟨-, -, -, hstore, -⟩ := happ.fields
    rw [exec_nak_of_applies happ, nakEffect_not_offered (hstore ▸ hnot), State.recordRefusal_eq]
  case unpark =>
    obtain ⟨-, -, -, hstore, -⟩ := happ.fields
    rw [exec_unpark_of_applies happ, unparkEffect_parked (hstore ▸ hfind) hpark, ← hstore]
    rfl
  case notParked =>
    obtain ⟨-, -, -, hstore, -⟩ := happ.fields
    rw [exec_unpark_of_applies happ, unparkEffect_not_parked (hstore ▸ hnot), State.recordRefusal_eq]

end Sys2Proof.Machine
end

section
/-! PROOFS. What every step keeps (R81, R83, R93, R118, R159, R160 and the ranges of configuration, link and ports): each
invariant is shown for the basic moves, of which every command is a run. -/

namespace Sys2Proof.Machine

/-! ### A step as a run of moves -/

/-- A step on an empty queue idles; any other takes the front command away and is then a run of basic moves. -/
theorem step_moves {s t : State} (h : step s = .next t) :
    t = s ∨ ∃ rest, Moves { s with pending := rest } t := by
  unfold step at h
  split at h
  · cases h; exact .inl rfl
  · next c rest _ =>
    obtain ⟨u, hu, hmoves⟩ := exec_moves c { s with pending := rest }
    cases hu.symm.trans h
    exact .inr ⟨rest, hmoves⟩

/-- An invariant that does not look at the queue and that every basic move keeps is kept by every step. -/
theorem step_keeps {P : State → Prop} (hqueue : ∀ s rest, P s → P { s with pending := rest })
    (hmove : ∀ s t, Move s t → P s → P t) {s t : State} (hs : P s) (h : step s = .next t) : P t := by
  rcases step_moves h with rfl | ⟨rest, hmoves⟩
  · exact hs
  · exact hmoves.keeps hmove (hqueue s rest hs)

/-! ### The meter (R118) -/

theorem directoryCharges_append (d d' : List Entry) :
    directoryCharges (d ++ d') = directoryCharges d + directoryCharges d' := by
  simp [directoryCharges]

theorem directoryCharges_singleton (e : Entry) : directoryCharges [e] = e.charge := by
  simp [directoryCharges]

theorem directoryCharges_eq_zero {d : List Entry} (h : ∀ e ∈ d, e.charge = 0) : directoryCharges d = 0 := by
  induction d with
  | nil => rfl
  | cons e d ih =>
    obtain ⟨hfirst, hrest⟩ := List.forall_mem_cons.mp h
    rw [← List.singleton_append, directoryCharges_append, directoryCharges_singleton, hfirst, ih hrest]

/-- What a reclaim removes carries no charge, so the charges stay. -/
theorem directoryCharges_reclaimRest {d : List Entry} (h : ∀ e ∈ d, e.state.out = true → e.charge = 0) :
    directoryCharges (reclaimRest d) = directoryCharges d := by
  have hgone : directoryCharges (reclaimed d) = 0 :=
    directoryCharges_eq_zero fun e he =>
      h e (List.takeWhile_subset _ he) (List.all_eq_true.mp List.all_takeWhile e he)
  calc directoryCharges (reclaimRest d)
      = directoryCharges (reclaimed d ++ reclaimRest d) := by rw [directoryCharges_append, hgone, Nat.zero_add]
    _ = directoryCharges d := by rw [reclaimed, reclaimRest, List.takeWhile_append_dropWhile]

/-- No entry out of custody carries a charge after a change that leaves none on those that it takes out. -/
theorem updEntry_out_uncharged {n : Nat} {f : Entry → Entry} {d : List Entry}
    (hf : ∀ x ∈ d, (f x).state.out = true → (f x).charge = 0)
    (hd : ∀ x ∈ d, x.state.out = true → x.charge = 0) :
    ∀ x ∈ updEntry n f d, x.state.out = true → x.charge = 0 := by
  intro x hx hout
  rcases updEntry_mem hx with hold | ⟨y, hy, rfl⟩
  · exact hd x hold hout
  · exact hf y hy hout

theorem spillCharges_listAfterSpill (e : Entry) (l : List SpillItem) :
    spillCharges (listAfterSpill e l) = spillCharges l + e.charge := by
  unfold listAfterSpill
  split
  · exact addSpill_sum _ _
  · omega

/-- Of the basic moves, those that change entries, spill list or meter move or release a charge whole. -/
theorem Move.keeps_meterBalanced (s t : State) (h : Move s t) (hs : s.MeterBalanced) : t.MeterBalanced := by
  obtain ⟨hmeter, hout⟩ := hs
  cases h with
  | run | resetInput | marker | lanes | policy | engine | ring | armed | reservation | link | intake | batch | keys
    | keyLine | cfg | choice => exact ⟨hmeter, hout⟩
  | port p f => cases p <;> exact ⟨hmeter, hout⟩
  | entry n f hf =>
    refine ⟨?_, updEntry_out_uncharged (fun x hx ho => (hf x).1.trans (hout x hx ((hf x).2.2.1 ho))) hout⟩
    exact hmeter.trans (congrArg (· + _) (updEntry_sum n f Entry.charge (fun x => (hf x).1) _).symm)
  | entries f hf =>
    refine ⟨?_, fun x hx ho => ?_⟩
    · have hcharges : (Entry.charge ∘ f) = Entry.charge := funext fun x => (hf x).1
      simpa [State.updStore, directoryCharges, hcharges] using hmeter
    · obtain ⟨y, hy, rfl⟩ := List.mem_map.mp hx
      exact (hf y).1.trans (hout y hy ((hf y).2.2.1 ho))
  | offer n timer =>
    refine ⟨?_, updEntry_out_uncharged (fun x _ ho => nomatch ho) hout⟩
    exact hmeter.trans (congrArg (· + _)
      (updEntry_sum n (fun x => { x with state := .offered timer }) Entry.charge (fun _ => rfl) _).symm)
  | allocate e =>
    refine ⟨?_, fun x hx ho => ?_⟩
    · simp only [State.updStore, State.setMeter, Store.allocate, directoryCharges_append, directoryCharges_singleton]
      omega
    · rcases List.mem_append.mp hx with hx | hx
      · exact hout x hx ho
      · rw [List.mem_singleton.mp hx] at ho
        cases ho
  | removeTail e htail =>
    obtain ⟨older, hd⟩ := List.getLast?_eq_some_iff.mp htail
    simp only [hd, directoryCharges_append, directoryCharges_singleton] at hmeter
    refine ⟨?_, fun x hx => hout x (List.dropLast_subset _ hx)⟩
    simp only [State.release, State.setMeter, State.updStore, Store.removeTail, hd, List.dropLast_concat]
    omega
  | reclaim =>
    exact ⟨hmeter.trans (congrArg (· + _) (directoryCharges_reclaimRest hout).symm),
      fun x hx => hout x (List.dropWhile_subset _ hx)⟩
  | confirm e hfind =>
    refine ⟨?_, updEntry_out_uncharged (fun x _ _ => rfl) hout⟩
    have hsum := updEntry_found (f := Entry.confirmed) hfind Entry.charge
    simp only [State.release, State.setMeter, State.updStore, Store.updEntry, Entry.confirmed, directoryCharges] at *
    omega
  | spillOut e hfind =>
    refine ⟨?_, updEntry_out_uncharged (fun x _ _ => rfl) hout⟩
    have hsum := updEntry_found (f := fun x => { x with state := .spilled, charge := 0 }) hfind Entry.charge
    simp only [State.updSpill, State.updStore, Store.updEntry, directoryCharges, spillCharges_listAfterSpill] at *
    omega
  | ackSpill n x hfind =>
    refine ⟨?_, hout⟩
    have hsum := removeSpill_sum hfind
    simp only [State.release, State.setMeter, State.updSpill] at *
    omega
  | cold => exact ⟨rfl, fun _ he => nomatch he⟩

/-- Settles O57: no basic move unbalances the meter. -/
theorem meterStaysBalanced : Obligations.MeterStaysBalanced :=
  fun _ _ hs h => step_keeps (fun _ _ => id) Move.keeps_meterBalanced hs h

/-! ### The store's geometry (R81, R83, R93) -/

theorem Entry.Gentle.countP_map_le {f : Entry → Entry} (hf : ∀ x, Entry.Gentle x (f x)) (d : List Entry) :
    offeredCount (d.map f) ≤ offeredCount d := by
  unfold offeredCount
  rw [List.countP_map]
  exact List.countP_mono_left fun x _ => (hf x).2.2.2

/-- The geometry is kept where directory length, slots and OFFERED entries do not rise and the ring is canonical. -/
theorem State.StoreFits.of_le {s t : State} (hs : s.StoreFits)
    (hlen : t.store.directory.length ≤ s.store.directory.length) (hslots : t.store.slotsUsed ≤ s.store.slotsUsed)
    (hoff : offeredCount t.store.directory ≤ offeredCount s.store.directory)
    (hring : Memory.wf s.store.ring = true → Memory.wf t.store.ring = true) : t.StoreFits :=
  ⟨Nat.le_trans hlen hs.1, Nat.le_trans hslots hs.2.1, Nat.le_trans hoff hs.2.2.1, hring hs.2.2.2⟩

theorem slots_sum_le_of_sublist {d d' : List Entry} (h : d.Sublist d') :
    (d.map Entry.slots).sum ≤ (d'.map Entry.slots).sum := by
  induction h with
  | slnil => exact Nat.le_refl _
  | cons e _ ih =>
    rw [List.map_cons, List.sum_cons]
    exact Nat.le_add_left_of_le ih
  | cons_cons e _ ih =>
    rw [List.map_cons, List.map_cons, List.sum_cons, List.sum_cons]
    exact Nat.add_le_add_left ih _

/-- A part of the directory has no more entries, slots and OFFERED entries than the whole. -/
theorem State.StoreFits.of_sublist {s t : State} (hs : s.StoreFits)
    (hsub : t.store.directory.Sublist s.store.directory) (hring : t.store.ring = s.store.ring) : t.StoreFits :=
  hs.of_le hsub.length_le (slots_sum_le_of_sublist hsub) hsub.countP_le (by rw [hring]; exact id)

/-- A change of one entry that keeps its slots and offers nothing fits. -/
theorem State.StoreFits.updEntry {s t : State} (hs : s.StoreFits) {n : Nat} {f : Entry → Entry}
    (hd : t.store.directory = Machine.updEntry n f s.store.directory) (hring : t.store.ring = s.store.ring)
    (hslots : ∀ x, (f x).slots = x.slots) (hoff : ∀ x, (f x).state.isOffered = true → x.state.isOffered = true) :
    t.StoreFits := by
  refine hs.of_le ?_ ?_ ?_ (by rw [hring]; exact id)
  · exact Nat.le_of_eq (by rw [hd, updEntry_length])
  · rw [Store.slotsUsed, hd, updEntry_sum n f Entry.slots hslots]
    exact Nat.le_refl _
  · rw [hd]
    exact updEntry_count n f _ hoff _

/-- Only an allocation adds an entry and its slots, only an offer an OFFERED entry, and each has room for it. -/
theorem Move.keeps_storeFits (s t : State) (h : Move s t) (hs : s.StoreFits) : t.StoreFits := by
  cases h with
  | run | resetInput | marker | lanes | policy | engine | armed | reservation | link | intake | batch | keys
    | keyLine | cfg | choice | ackSpill => exact hs
  | port p f => cases p <;> exact hs
  | ring a bytes => exact hs.of_le (Nat.le_refl _) (Nat.le_refl _) (Nat.le_refl _) fun h => Memory.wf_writeRun h a bytes
  | entry n f hf => exact hs.updEntry rfl rfl (fun x => (hf x).2.1) fun x => (hf x).2.2.2
  | entries f hf =>
    refine hs.of_le (by simp) ?_ (Entry.Gentle.countP_map_le hf _) id
    have hslots : (Entry.slots ∘ f) = Entry.slots := funext fun x => (hf x).2.1
    simp [State.updStore, Store.slotsUsed, hslots]
  | offer n timer hroom =>
    obtain ⟨hlen, hslots, hoff, hring⟩ := hs
    refine ⟨?_, ?_, ?_, hring⟩
    · simpa [Store.updEntry] using hlen
    · simpa only [State.updStore_store, Store.slotsUsed, Store.updEntry,
        updEntry_sum n (fun x => { x with state := .offered timer }) Entry.slots fun _ => rfl] using hslots
    · exact Nat.le_trans (updEntry_count_succ n _ _ _) hroom
  | allocate e hlen hslots =>
    obtain ⟨-, -, hoff, hring⟩ := hs
    refine ⟨?_, ?_, ?_, hring⟩
    · rw [State.setMeter_store, State.updStore_store, Store.allocate, List.length_append]
      exact hlen
    · simpa [Store.allocate, Store.slotsUsed] using hslots
    · simpa [Store.allocate, offeredCount, EntryState.isOffered] using hoff
  | removeTail e => exact hs.of_sublist (List.dropLast_sublist _) rfl
  | reclaim => exact hs.of_sublist (List.dropWhile_sublist _) rfl
  | confirm e => exact hs.updEntry rfl rfl (fun _ => rfl) fun _ h => nomatch h
  | spillOut e => exact hs.updEntry rfl rfl (fun _ => rfl) fun _ h => nomatch h
  | cold => exact ⟨Nat.zero_le _, Nat.zero_le _, Nat.zero_le _, rfl⟩

/-- Settles O58: no basic move leaves the store's geometry. -/
theorem storeStaysWithinItsGeometry : Obligations.StoreStaysWithinItsGeometry :=
  fun _ _ hs h => step_keeps (fun _ _ => id) Move.keeps_storeFits hs h

/-! ### The key roles (R159, R160) -/

theorem KeyTable.cold_ordered : KeyTable.cold.Ordered := by
  intro i v hv
  simp [KeyTable.cold] at hv

/-- The move of the key table keeps the order by its own premise; every other leaves the key table, or empties it. -/
theorem Move.keeps_ordered (s t : State) (h : Move s t) (hs : s.keys.Ordered) : t.keys.Ordered := by
  cases h with
  | run | resetInput | marker | lanes | policy | engine | ring | armed | entry | entries | offer | allocate | removeTail
    | reclaim | confirm | spillOut | ackSpill | reservation | link | intake | batch | keyLine | cfg | choice => exact hs
  | port p f => cases p <;> exact hs
  | keys f hf => exact hf hs
  | cold => exact KeyTable.cold_ordered

/-- Settles O59: no basic move disorders the key roles. -/
theorem keyRolesStayOrdered : Obligations.KeyRolesStayOrdered :=
  fun _ _ hs h => step_keeps (P := fun s => s.keys.Ordered) (fun _ _ => id) Move.keeps_ordered hs h

/-! ### Configuration, link monitor, ports and the RESET input -/

theorem Settings.cold_inRange : Settings.cold.InRange := by
  refine ⟨by decide, by decide, by decide, by decide, by decide, by decide, fun i => ?_, by decide, by decide, by decide,
    by decide, by decide⟩
  simp [Settings.cold]

theorem Port.cold_sound (p : PortId) : Port.cold.Sound p := by
  cases p <;> exact ⟨rfl, rfl, Nat.zero_le _, Nat.zero_le _⟩

theorem Link.doubt_consistent : Link.Consistent ⟨.doubt, 0, 0⟩ := by
  simp [Link.Consistent]

/-- Each move that changes one of these keeps it by its own premise; a cold start gives all of them their defaults. -/
theorem Move.keeps_regular (s t : State) (h : Move s t) (hs : s.Regular) : t.Regular := by
  obtain ⟨hcfg, hlink, hlp, hup, hrun⟩ := hs
  cases h with
  | marker | lanes | policy | engine | ring | armed | entry | entries | offer | allocate | removeTail | reclaim | confirm
    | spillOut | ackSpill | reservation | intake | batch | keys | keyLine | choice =>
    exact ⟨hcfg, hlink, hlp, hup, hrun⟩
  | run r hr => exact ⟨hcfg, hlink, hlp, hup, hr⟩
  | resetInput b hb => exact ⟨hcfg, hlink, hlp, hup, hb⟩
  | link l hl => exact ⟨hcfg, hl hcfg hlink, hlp, hup, hrun⟩
  | cfg c hc => exact ⟨hc hcfg, hlink, hlp, hup, hrun⟩
  | port p f hf =>
    cases p with
    | lp => exact ⟨hcfg, hlink, hf hlp, hup, hrun⟩
    | up => exact ⟨hcfg, hlink, hlp, hf hup, hrun⟩
  | cold =>
    refine ⟨Settings.cold_inRange, Link.doubt_consistent, Port.cold_sound .lp, Port.cold_sound .up, fun hreset => ?_⟩
    have hrun' : s.coldStart.run = .inColdReset := if_pos hreset
    rw [hrun']
    nofun

/-- Settles O60: no basic move leaves these bounds. -/
theorem configurationLinkAndPortsStaySound : Obligations.ConfigurationLinkAndPortsStaySound :=
  fun _ _ hs h => step_keeps (fun _ _ => id) Move.keeps_regular hs h

/-! ### The invariants after a cold start, and the queue -/

/-- Settles O56: the cold start's values meet the four invariants. -/
theorem coldStartMeetsTheInvariants : Obligations.ColdStartMeetsTheInvariants :=
  ⟨⟨rfl, fun _ he => nomatch he⟩, ⟨Nat.zero_le _, Nat.zero_le _, Nat.zero_le _, rfl⟩, KeyTable.cold_ordered,
    Settings.cold_inRange, Link.doubt_consistent, Port.cold_sound .lp, Port.cold_sound .up, nofun⟩

/-- Settles O1: the front command is taken and executed, by the step's definition. -/
theorem stepRunsFrontCommand : Obligations.StepRunsFrontCommand := fun _ _ => rfl

theorem Move.pending_eq (s t : State) (h : Move s t) : t.pending = s.pending := by
  cases h with
  | port p f => cases p <;> rfl
  | _ => rfl

/-- Settles O2: every command is a run of basic moves, and none of them touches the queue. -/
theorem commandsKeepTheQueue : Obligations.CommandsKeepTheQueue := fun c s =>
  have ⟨t, hexec, hmoves⟩ := exec_moves c s
  ⟨t, hexec, hmoves.keeps (P := fun u => u.pending = s.pending) (fun u v h hu => (h.pending_eq u v).trans hu) rfl⟩

end Sys2Proof.Machine
end

section
/-! PROOFS. The transactions of the frame ports (R139 to R141, R181 to R183): arriving writes and reads, holds and the hold
limit, the burst limit, and the places of the intake. -/

namespace Sys2Proof.Machine

/-! ### Which transaction a command is -/

/-- The command of a write runs the one form of a posted write (R181). -/
theorem exec_of_writeOf {c : Instr} {p : PortId} {stage : Stage} {w : PostedWrite} (h : writeOf c = some (p, stage, w))
    (s : State) : ∃ effect, exec c s = .next (s.portWrite p stage w effect) := by
  cases c <;> cases h <;> exact ⟨_, rfl⟩

theorem execHeaderRefusal_of_control {p : PortId} {code : BitVec 5} {index : Word}
    (h : decoderRefusal p .read true code index = none) (hdr : Header) (count : Nat) (s : State) :
    execHeaderRefusal p .read true code index hdr count s =
      .next (s.portRead p ⟨.control code count, index, hdr⟩) := by
  simp only [execHeaderRefusal, h, and_self, if_true]

/-- The command of a read runs the one form of a read (R181). -/
theorem exec_of_readOf {c : Instr} {p : PortId} {r : ReadRequest} (h : readOf c = some (p, r)) (s : State) :
    exec c s = .next (s.portRead p r) := by
  cases c with
  | headerRefusal p' dir control code index hdr count =>
    simp only [readOf, Option.ite_none_right_eq_some] at h
    obtain ⟨⟨rfl, rfl, hnone⟩, heq⟩ := h
    cases heq
    exact execHeaderRefusal_of_control hnone hdr count s
  | _ => cases h <;> rfl

/-! ### What each step of a transaction does to its port -/

theorem State.setHeld_eq (s : State) (p : PortId) (h : Option Held) :
    s.setHeld p h = s.updPort p fun q => { q with held := h, sending := false } := by
  cases p <;> rfl

theorem State.noteBurst_of_gt (s : State) (p : PortId) {n : Nat} (h : Config.burstLimit < n) :
    s.noteBurst p n = s.updPort p fun q =>
      { q with truncated := true, events := q.events ||| Event.overrun.bit } := by
  rw [State.noteBurst, if_pos h]
  cases p <;> rfl

theorem State.takePlace_of_le (s : State) (p : PortId) {w : PostedWrite} (h : w.words.length ≤ Config.burstLimit) :
    s.takePlace p w = s.updPort p fun q => { q with posted := q.posted ++ [w], sending := false } := by
  rw [State.takePlace, State.noteBurst_of_le _ _ h, PostedWrite.shortened_of_le h]
  cases p <;> rfl

theorem State.takePlace_of_gt (s : State) (p : PortId) {w : PostedWrite} (h : Config.burstLimit < w.words.length) :
    s.takePlace p w = s.updPort p fun q =>
      { q with
        posted := q.posted ++ [{ w with words := w.words.take Config.burstLimit }]
        sending := false
        truncated := true
        events := q.events ||| Event.overrun.bit } := by
  rw [State.takePlace, State.noteBurst_of_gt _ _ h]
  cases p <;> rfl

theorem State.postWrite_of_room {s : State} {p : PortId} (w : PostedWrite) (hheld : (s.port p).held = none)
    (hroom : (s.port p).posted.length < Config.postedPlaces) : s.postWrite p w = s.takePlace p w := by
  simp only [State.postWrite, hheld, Option.isSome_none, Bool.false_eq_true, if_false, hroom, if_true]

theorem State.postWrite_of_full {s : State} {p : PortId} (w : PostedWrite) (hheld : (s.port p).held = none)
    (hfull : Config.postedPlaces ≤ (s.port p).posted.length) :
    s.postWrite p w = s.setHeld p (some ⟨.write w, s.cfg.holdLimit, false⟩) := by
  simp only [State.postWrite, hheld, Option.isSome_none, Bool.false_eq_true, if_false, Nat.not_lt.mpr hfull]

/-- The header of a posted write, while the part runs (R181). -/
theorem exec_of_post {c : Instr} {s : State} {p : PortId} {w : PostedWrite} (h : writeOf c = some (p, .post, w))
    (hrun : s.run = .running) : exec c s = .next (s.postWrite p w) := by
  obtain ⟨effect, hexec⟩ := exec_of_writeOf h s
  rw [hexec, State.portWrite, whenRunning_of_running hrun]

/-- Settles O4: the queue has a place, or the hold begins under the limit in force. -/
theorem arrivingWriteTakesPlaceOrIsHeld : Obligations.ArrivingWriteTakesPlaceOrIsHeld := by
  intro c s p w hw hrun hheld hwords
  rw [exec_of_post hw hrun]
  refine ⟨fun hroom => ?place, fun hfull => ?hold⟩
  case place => rw [State.postWrite_of_room w hheld hroom, State.takePlace_of_le s p hwords]
  case hold => rw [State.postWrite_of_full w hheld hfull, State.setHeld_eq]

/-! ### The intake's places (R139, R140) -/

theorem State.intakeAdmissible_iff (s : State) : s.intakeAdmissible = true ↔
    s.up.posted.length < 4 ∧ s.intake.queue.length + s.intake.claimed < 4 := by
  have hposted : Config.postedPlaces = 4 := rfl
  have hplaces : Config.intakePlaces = 4 := rfl
  rw [State.intakeAdmissible, Bool.and_eq_true, decide_eq_true_eq, decide_eq_true_eq, Intake.free]
  omega

section
variable {s : State} (index : Word) (burst : Burst)

theorem exec_intakeClaim_admitted (hrun : s.run = .running) (hheld : s.up.held = none)
    (hroom : s.intakeAdmissible = true) :
    exec (.intakeClaim index burst) s = .next (s.admitIntake (intakePosted index burst)) := by
  simp only [exec, execIntakeClaim, whenRunning_of_running hrun, hheld, Option.isSome_none, Bool.false_eq_true, if_false,
    hroom, if_true]

theorem exec_intakeClaim_held (hrun : s.run = .running) (hheld : s.up.held = none)
    (hfull : ¬ s.intakeAdmissible = true) :
    exec (.intakeClaim index burst) s =
      .next (s.setHeld .up (some ⟨.intake (intakePosted index burst), s.cfg.holdLimit, false⟩)) := by
  simp only [exec, execIntakeClaim, whenRunning_of_running hrun, hheld, Option.isSome_none, Bool.false_eq_true, if_false,
    hfull]

end

/-- Settles O5: a place keeps 64 words, and the crossing of the 65th is noted, of a read's answer too. -/
theorem burstLimitTruncates : Obligations.BurstLimitTruncates := by
  refine ⟨fun c s p w hw hrun hheld hroom hlong => ?write, fun index hdr words s hrun hheld hposted hplaces hlong => ?intake,
    fun p s hrun hsending => ?read⟩
  case write =>
    rw [exec_of_post hw hrun, State.postWrite_of_room w hheld hroom, State.takePlace_of_gt s p hlong]
    rfl
  case intake =>
    rw [exec_intakeClaim_admitted index _ hrun hheld (s.intakeAdmissible_iff.mpr ⟨hposted, hplaces⟩), State.admitIntake,
      State.takePlace_of_gt s .up (w := intakePosted index ⟨hdr, words⟩) hlong]
    rfl
  case read =>
    have hexec : exec (.readBurstTruncation p) s = .next (s.noteBurst p (Config.burstLimit + 1)) := by
      simp only [exec, execReadBurstTruncation, whenRunning_of_running hrun, hsending, if_true]
    rw [hexec, State.noteBurst_of_gt s p (Nat.lt_succ_self _)]

/-! ### Reads behind posted writes -/

/-- A read held behind posted writes reaches its block once the queue is empty (R182). -/
theorem State.resumePort_read {s : State} {p : PortId} {r : ReadRequest} {limit : Nat}
    (hheld : (s.port p).held = some ⟨.read r, limit, false⟩) (hposted : (s.port p).posted = []) :
    s.resumePort p = (s.setHeld p none).answerRead p r limit := by
  simp [State.resumePort, hheld, hposted]

/-- A write applied from the front of the queue, whatever its port holds (R181). -/
theorem State.portWrite_of_front {s : State} {p : PortId} {w : PostedWrite} {rest : List PostedWrite}
    (hrun : s.run = .running) (hwords : w.words.length ≤ Config.burstLimit) (hposted : (s.port p).posted = w :: rest)
    (effect : State → State) : s.portWrite p .apply w effect = (effect (s.setPosted p rest)).resumePort p := by
  simp only [State.portWrite, whenRunning_of_running hrun, hposted, PostedWrite.shortened_of_le hwords, if_true]

/-- Settles O6: the hold begins at the read's header, and the last posted write lets the read reach its block. -/
theorem readWaitsForPostedWrites : Obligations.ReadWaitsForPostedWrites := by
  refine ⟨fun c s p r hr hrun hheld hposted => ?hold, fun s p hdr words r limit hrun hwords hposted hheld => ?answer⟩
  case hold => rw [exec_of_readOf hr, State.portRead_of_posted hrun hheld hposted, State.setHeld_eq]
  case answer =>
    let t := (s.setPosted p []).updPort p Port.clearStatus
    have htheld : (t.port p).held = some ⟨.read r, limit, false⟩ := by simpa [t, State.setPosted, Port.clearStatus] using hheld
    have htposted : (t.port p).posted = [] := by simp [t, State.setPosted, Port.clearStatus]
    calc exec (.writeStatusClear .apply p hdr words) s
        = .next (t.resumePort p) := congrArg Host.Outcome.next (State.portWrite_of_front hrun hwords hposted _)
      _ = .next ((t.setHeld p none).answerRead p r limit) := by rw [State.resumePort_read htheld htposted]
      _ = _ := by rw [State.setHeld_eq]; cases p <;> rfl

/-! ### The hold limit (R182) -/

section
variable {s : State} {p : PortId} {limit : Nat} {b : Bool}

theorem exec_holdLimitExpiry (hrun : s.run = .running) (p : PortId) (count : Nat) :
    exec (.holdLimitExpiry p count) s = .next (s.expireHold p count) :=
  congrArg Host.Outcome.next (whenRunning_of_running hrun _)

/-- The end of a held write of at most 64 words: released, its data words never counted. -/
theorem State.expireHold_write {w : PostedWrite} (hheld : (s.port p).held = some ⟨.write w, limit, b⟩)
    (hwords : w.words.length ≤ Config.burstLimit) (count : Nat) :
    s.expireHold p count = (s.setHeld p none).recordRefusal p w.target w.index w.hdr .heldOut := by
  simp only [State.expireHold, hheld, State.noteBurst_of_le _ _ hwords]

theorem State.expireHold_intake {w : PostedWrite} (hheld : (s.port p).held = some ⟨.intake w, limit, b⟩)
    (hwords : w.words.length ≤ Config.burstLimit) (count : Nat) :
    s.expireHold p count = (s.setHeld p none).recordRefusal p w.target w.index w.hdr .heldOut := by
  simp only [State.expireHold, hheld, State.noteBurst_of_le _ _ hwords]

/-- The end of a held read, of which at most 64 words are read. -/
theorem State.expireHold_read {r : ReadRequest} (hheld : (s.port p).held = some ⟨.read r, limit, b⟩) {count : Nat}
    (hcount : count ≤ Config.burstLimit) :
    s.expireHold p count =
      ((s.setHeld p none).recordRefusal p r.kind.target r.index r.hdr .heldOut).answerWith p .heldOut r.hdr [] := by
  simp only [State.expireHold, hheld, State.noteBurst_of_le _ _ hcount]

end

/-- Settles O48: the hold ends, and each kind of transaction leaves its refusal. -/
theorem expiredHoldLeavesNoTrace : Obligations.ExpiredHoldLeavesNoTrace := by
  intro p count s limit b hrun hcount
  simp only [exec_holdLimitExpiry hrun]
  refine ⟨fun w hheld hwords => ?write, fun w hheld hwords => ?intake, fun r hheld => ?read⟩
  case write =>
    rw [State.expireHold_write hheld hwords, State.recordRefusal_eq, State.setHeld_eq, State.updPort_updPort]
    rfl
  case intake =>
    rw [State.expireHold_intake hheld hwords, State.recordRefusal_eq, State.setHeld_eq, State.updPort_updPort]
    rfl
  case read =>
    rw [State.expireHold_read hheld hcount, State.recordRefusal_eq, State.answerWith_eq, State.setHeld_eq,
      State.updPort_updPort, State.updPort_updPort]

/-! ### INTAKE writes and OPEN takes (R139 to R141, R72) -/

/-- An INTAKE write applied from the front of its queue, with nothing held behind it (R141). -/
theorem exec_intakeWrite_of_front {s : State} {index : Word} {hdr : Header} {words : List DataWord}
    {rest : List PostedWrite} (hrun : s.run = .running) (hheld : s.up.held = none)
    (hposted : s.up.posted = ⟨intakeWindow, index, hdr, words⟩ :: rest) (hwords : words.length ≤ Config.burstLimit) :
    exec (.intakeWrite words) s = .next (intakeEffect index hdr words (s.setPosted .up rest).endClaim) := by
  have hfront : exec (.intakeWrite words) s =
      .next ((intakeEffect index hdr words (s.setPosted .up rest).endClaim).resumePort .up) := by
    simp only [exec, execIntakeWrite, whenRunning_of_running hrun, hposted, shorten_of_le hwords, and_self, if_true]
  rw [hfront, State.resumePort_of_held_none]
  unfold intakeEffect
  split
  · exact hheld
  · split <;> exact hheld

theorem intakeEffect_short {words : List DataWord} (h : words.length < responseWords) (index : Word) (hdr : Header)
    (s : State) : intakeEffect index hdr words s = s.recordRefusal .up intakeWindow index hdr .badFormat := if_pos h

theorem intakeEffect_suspended {words : List DataWord} {s : State} (h : responseWords ≤ words.length)
    (hsuspended : s.intake.suspended = true) (index : Word) (hdr : Header) :
    intakeEffect index hdr words s = s.recordRefusal .up intakeWindow index hdr .suspended := by
  rw [intakeEffect, if_neg (Nat.not_lt.mpr h), if_pos hsuspended]

theorem intakeEffect_queued {words : List DataWord} {s : State} (h : responseWords ≤ words.length)
    (hopen : s.intake.suspended = false) (index : Word) (hdr : Header) :
    intakeEffect index hdr words s =
      s.updIntake fun i => { i with queue := i.queue ++ [bytesOfWords ((values words).take responseWords)] } := by
  rw [intakeEffect, if_neg (Nat.not_lt.mpr h), if_neg (by rw [hopen]; decide)]

/-- The bytes of a response record, as R138 lays out its data words. -/
theorem bytesOfWords_values_take (words : List DataWord) (n : Nat) :
    bytesOfWords ((values words).take n) =
      (words.take n).flatMap fun w => [w.value.extractLsb' 8 8, w.value.extractLsb' 0 8] := by
  rw [values, ← List.map_take, bytesOfWords, List.flatMap_map]
  rfl

/-- Settles O39: the claim by the places, the application by length and suspension. -/
theorem intakeWriteClaimsThenQueuesRecord : Obligations.IntakeWriteClaimsThenQueuesRecord := by
  refine ⟨fun index hdr words s hrun hheld hwords => ⟨fun hroom => ?claim, fun hfull => ?hold⟩,
    fun index hdr words rest s hrun hheld hposted hwords => ?applied⟩
  case claim =>
    rw [exec_intakeClaim_admitted index _ hrun hheld (s.intakeAdmissible_iff.mpr hroom), State.admitIntake,
      State.takePlace_of_le s .up (w := intakePosted index ⟨hdr, words⟩) hwords]
    rfl
  case hold =>
    rw [exec_intakeClaim_held index _ hrun hheld (mt s.intakeAdmissible_iff.mp hfull), State.setHeld_eq]
    rfl
  case applied =>
    rw [exec_intakeWrite_of_front hrun hheld hposted hwords]
    refine ⟨fun hshort => ?short, fun hlong hsuspended => ?suspended, fun hlong hopen => ?queued⟩
    case short =>
      rw [intakeEffect_short hshort, State.recordRefusal_eq]
      rfl
    case suspended =>
      rw [intakeEffect_suspended (s := (s.setPosted .up rest).endClaim) hlong hsuspended, State.recordRefusal_eq]
      rfl
    case queued =>
      rw [intakeEffect_queued (s := (s.setPosted .up rest).endClaim) hlong hopen, bytesOfWords_values_take]
      rfl

theorem exec_takeOpen {s : State} {record : List Byte} {rest : List (List Byte)} (hrun : s.run = .running)
    (hdue : s.due = some .opening) (hqueue : s.intake.queue = record :: rest) :
    exec .takeOpen s = .next (openTake record rest s) := by
  simp only [exec, execTakeOpen, whenRunning_of_running hrun, hdue, hqueue]

/-- A held INTAKE write is admitted once there is room for it (R140). -/
theorem State.resumePort_intake {s : State} {w : PostedWrite} {limit : Nat} {b : Bool}
    (hheld : s.up.held = some ⟨.intake w, limit, b⟩) (hroom : s.intakeAdmissible = true) :
    s.resumePort .up = (s.setHeld .up none).admitIntake w := by
  simp only [State.resumePort, State.port_up, hheld, hroom, if_true]

/-- Settles O25: the freed place admits a held INTAKE write, which there is room for then. -/
theorem openTakeFreesAnIntakePlace : Obligations.OpenTakeFreesAnIntakePlace := by
  intro s record rest hrun hdue hqueue t
  rw [exec_takeOpen hrun hdue hqueue]
  have htake : openTake record rest s = t.resumePort .up := rfl
  rw [htake]
  refine ⟨fun hheld => ?free, fun w limit b hheld hwords hposted hplaces => ?admitted⟩
  case free => rw [State.resumePort_of_held_none (s := t) (p := .up) hheld]
  case admitted =>
    have hroom : t.intakeAdmissible = true := by
      refine t.intakeAdmissible_iff.mpr ⟨hposted, ?_⟩
      rw [hqueue, List.length_cons] at hplaces
      exact Nat.lt_of_succ_le (by simpa [t, Nat.add_right_comm] using hplaces)
    rw [State.resumePort_intake (s := t) hheld hroom, State.admitIntake, State.takePlace_of_le _ .up hwords, State.setHeld_eq]
    rfl

end Sys2Proof.Machine
end

section
/-! PROOFS. The commands of a lane (chapter 1): LANE_BUF bursts, WRAP, ABANDON and RESET_LANE, and the lane reads. -/

namespace Sys2Proof.Machine

/-! ### The command of an applied write -/

section
variable {c : Instr} {s s' t : State} {p : PortId} {w : PostedWrite} {effect : State → State}

/-- The command of an applied write answers the state that its effect makes, where that leaves the port's hold alone. -/
theorem exec_of_applies (h : s.Applies p w s') (hexec : exec c s = .next (s.portWrite p .apply w effect))
    (heffect : effect s' = t) (hheld : (t.port p).held = (s'.port p).held) : exec c s = .next t := by
  rw [hexec, State.portWrite_of_applies h (heffect ▸ hheld), heffect]

/-- The command of an applied write that its block refuses. -/
theorem exec_of_applies_refused {target : Target} {index : Word} {hdr : Header} {reason : Reason}
    (h : s.Applies p w s') (hexec : exec c s = .next (s.portWrite p .apply w effect))
    (heffect : effect s' = s'.recordRefusal p target index hdr reason) :
    exec c s = .next (s'.updPort p fun q => q.refused (refusal target index hdr reason)) := by
  rw [exec_of_applies h hexec heffect (State.recordRefusal_held ..), State.recordRefusal_eq]

/-- The command of an applied write whose effect is a change of one lane. -/
theorem exec_of_applies_updLane {lane : Fin 16} {f : Lane → Lane} (h : s.Applies p w s')
    (hexec : exec c s = .next (s.portWrite p .apply w effect)) (heffect : effect s' = s'.updLane lane f) :
    exec c s = .next (s'.updLane lane f) :=
  exec_of_applies h hexec heffect (by rw [State.updLane_port])

theorem State.Applies.lanes_eq (h : s.Applies p w s') : s'.lanes = s.lanes := h.fields.1

theorem State.Applies.length_le (h : s.Applies p w s') : w.words.length ≤ Config.burstLimit := h.2.2.1

/-- On an open port a write of at most 64 words is applied at once. -/
theorem State.Open.applies (h : s.Open p) (w : PostedWrite) (hwords : w.words.length ≤ Config.burstLimit) :
    s.Applies p w (s.endAnswer p) :=
  ⟨h.1, h.2.1, hwords, .inl ⟨h.2.2, rfl⟩⟩

end

theorem State.updLane_eq_self {s : State} {lane : Fin 16} {f : Lane → Lane} (h : f s.lanes[lane] = s.lanes[lane]) :
    s.updLane lane f = s := by
  have hset : s.lanes.set lane s.lanes[lane] = s.lanes := by simp
  rw [State.updLane, State.updLanes, h, hset]

/-! ### The bytes of a burst (R1) -/

/-- The byte that a data word brings for the even (0) or odd (1) buffer position of its offset, if it is enabled. -/
def storedByte (w : DataWord) (half : Nat) : Option Byte :=
  if half = 0 then (if w.high then some (w.value.extractLsb' 8 8) else none)
  else (if w.low then some (w.value.extractLsb' 0 8) else none)

/-- Byte `i` of a lane's buffer with its mark. -/
def Lane.cell (l : Lane) (i : Nat) : Option Byte × Option Bool := (l.buffer[i]?, l.written[i]?)

theorem Lane.storeByte_cell (l : Lane) (i : Nat) (enable : Bool) (b : Byte) (j : Nat) :
    (l.storeByte i enable b).cell j =
      if enable = true ∧ i = j ∧ j < 128 then (some b, some true) else l.cell j := by
  unfold Lane.storeByte Lane.cell
  cases enable with
  | false => simp
  | true =>
    simp only [if_true, true_and, Vector.getElem?_setIfInBounds]
    by_cases hij : i = j
    · subst hij
      by_cases hlt : i < 128
      · simp [hlt]
      · simp [hlt]
    · simp [hij]

/-- A stored word changes at most the two bytes of its offset. -/
theorem Lane.storeWord_cell (l : Lane) (ow : Nat × DataWord) {i : Nat} (hi : i < 128) :
    (l.storeWord ow).cell i =
      if i / 2 = ow.1 then ((storedByte ow.2 (i % 2)).map fun b => (some b, some true)).getD (l.cell i) else l.cell i := by
  simp only [Lane.storeWord, Lane.storeByte_cell, storedByte]
  by_cases hoffset : i / 2 = ow.1
  · rcases Nat.mod_two_eq_zero_or_one i with hhalf | hhalf
    · have heven : 2 * ow.1 = i := by omega
      have hodd : ¬ 2 * ow.1 + 1 = i := by omega
      cases hhigh : ow.2.high <;> simp [hoffset, hhalf, heven, hi]
    · have heven : ¬ 2 * ow.1 = i := by omega
      have hodd : 2 * ow.1 + 1 = i := by omega
      cases hlow : ow.2.low <;> simp [hoffset, hhalf, heven, hodd, hi]
  · have heven : ¬ 2 * ow.1 = i := by omega
    have hodd : ¬ 2 * ow.1 + 1 = i := by omega
    simp [hoffset, heven, hodd]

theorem Lane.storeWord_frame (l : Lane) (ow : Nat × DataWord) :
    l.storeWord ow = { l with buffer := (l.storeWord ow).buffer, written := (l.storeWord ow).written } := by
  unfold Lane.storeWord Lane.storeByte
  cases ow.2.high <;> cases ow.2.low <;> rfl

/-- Words stored one after another leave everything of the lane but buffer and marks. -/
theorem Lane.storeWords_frame (places : List (Nat × DataWord)) (l : Lane) :
    places.foldl Lane.storeWord l = { l with
      buffer := (places.foldl Lane.storeWord l).buffer, written := (places.foldl Lane.storeWord l).written } := by
  induction places generalizing l with
  | nil => rfl
  | cons ow places ih =>
    rw [List.foldl_cons]
    refine (ih _).trans ?_
    rw [Lane.storeWord_frame l ow]

/-- A byte that no placed word brings keeps value and mark. -/
theorem Lane.storeWords_unreached (places : List (Nat × DataWord)) (l : Lane) {i : Nat} (hi : i < 128)
    (h : ∀ ow ∈ places, ow.1 = i / 2 → storedByte ow.2 (i % 2) = none) :
    (places.foldl Lane.storeWord l).cell i = l.cell i := by
  induction places generalizing l with
  | nil => rfl
  | cons ow places ih =>
    rw [List.foldl_cons, ih _ fun x hx => h x (List.mem_cons_of_mem _ hx), Lane.storeWord_cell l ow hi]
    split
    · next hoffset => rw [h ow List.mem_cons_self hoffset.symm]; rfl
    · rfl

/-- Of the placed words that bring a byte, the last one's value stands and is marked WRITTEN. -/
theorem Lane.storeWords_last (before after : List (Nat × DataWord)) (ow : Nat × DataWord) (l : Lane) {i : Nat} {b : Byte}
    (hi : i < 128) (hoffset : ow.1 = i / 2) (hstored : storedByte ow.2 (i % 2) = some b)
    (hafter : ∀ x ∈ after, x.1 = i / 2 → storedByte x.2 (i % 2) = none) :
    ((before ++ ow :: after).foldl Lane.storeWord l).cell i = (some b, some true) := by
  rw [List.foldl_append, List.foldl_cons, Lane.storeWords_unreached after _ hi hafter, Lane.storeWord_cell _ ow hi,
    if_pos hoffset.symm, hstored]
  rfl

section
variable {l l' : Lane} {w : DataWord} {i : Nat}

/-- A byte that the high half of a word reached if it was enabled, buffer and mark apart. -/
theorem Lane.cell_high
    (h : l.cell i = ((storedByte w 0).map fun b => (some b, some true)).getD (l'.cell i)) :
    l.buffer[i]? = (if w.high then some (w.value.extractLsb' 8 8) else l'.buffer[i]?) ∧
      l.written[i]? = (if w.high then some true else l'.written[i]?) := by
  refine Prod.mk.inj (h.trans ?_)
  cases hhigh : w.high <;> simp [storedByte, hhigh, Lane.cell]

theorem Lane.cell_low
    (h : l.cell i = ((storedByte w 1).map fun b => (some b, some true)).getD (l'.cell i)) :
    l.buffer[i]? = (if w.low then some (w.value.extractLsb' 0 8) else l'.buffer[i]?) ∧
      l.written[i]? = (if w.low then some true else l'.written[i]?) := by
  refine Prod.mk.inj (h.trans ?_)
  cases hlow : w.low <;> simp [storedByte, hlow, Lane.cell]

end

/-! ### Where a burst's words go (R3, R4) -/

/-- Within the buffer no word is dropped. -/
theorem burstPlaces_of_fits {form : BurstForm} {start : Nat} {words : List DataWord} (hstart : start ≤ 63)
    (hfits : ∀ k, k < words.length → burstOffset form start k ≤ 63) :
    burstPlaces form start words = words.zipIdx.map fun wk => (burstOffset form start wk.2, wk.1) := by
  rw [burstPlaces, if_neg (Nat.not_lt.mpr hstart), List.filter_eq_self]
  intro ow how
  obtain ⟨⟨w, k⟩, hmem, rfl⟩ := List.mem_map.mp how
  exact decide_eq_true (hfits k (by simpa using (List.mem_zipIdx hmem).2.1))

theorem burstPlaces_of_far {start : Nat} (h : 63 < start) (form : BurstForm) (words : List DataWord) :
    burstPlaces form start words = [] := if_pos h

/-- What runs past offset 63 of a LINEAR burst is dropped. -/
theorem burstPlaces_linear_take {start : Nat} (hstart : start ≤ 63) (words : List DataWord) :
    burstPlaces .linear start (words.take (64 - start)) = burstPlaces .linear start words := by
  let place := fun wk : DataWord × Nat => (burstOffset .linear start wk.2, wk.1)
  have hdropped : (((words.drop (64 - start)).zipIdx (words.take (64 - start)).length).map place).filter
      (fun ow => decide (ow.1 ≤ 63)) = [] := by
    refine List.filter_eq_nil_iff.mpr fun ow how => ?_
    obtain ⟨⟨w, k⟩, hmem, rfl⟩ := List.mem_map.mp how
    have hk := List.mem_zipIdx hmem
    simp only [List.length_take, List.length_drop] at hk
    refine fun hle => absurd (of_decide_eq_true hle) ?_
    simp only [place, burstOffset]
    omega
  rw [burstPlaces, burstPlaces, if_neg (Nat.not_lt.mpr hstart), if_neg (Nat.not_lt.mpr hstart)]
  conv => rhs; rw [← List.take_append_drop (64 - start) words, List.zipIdx_append, List.map_append, List.filter_append,
    Nat.zero_add, hdropped, List.append_nil]

section
variable {form : BurstForm} {start : Nat} {words : List DataWord}

theorem mem_zipIdx_places {ow : Nat × DataWord}
    (h : ow ∈ words.zipIdx.map fun wk => (burstOffset form start wk.2, wk.1)) :
    ∃ k, words[k]? = some ow.2 ∧ ow.1 = burstOffset form start k := by
  obtain ⟨⟨w, k⟩, hmem, rfl⟩ := List.mem_map.mp h
  exact ⟨k, List.mem_zipIdx_iff_getElem?.mp hmem, rfl⟩

variable (hstart : start ≤ 63) (hfits : ∀ k, k < words.length → burstOffset form start k ≤ 63) (l : Lane)

include hstart hfits

/-- A burst changes the lane's mode, buffer and marks, and moves the lane to ASSEMBLING if it stores a byte. -/
theorem Lane.storeBurst_frame :
    l.storeBurst (burstPlaces form start words) = { l with
      mode := if words.any (fun w => w.high || w.low) then .assembling else l.mode
      buffer := (l.storeBurst (burstPlaces form start words)).buffer
      written := (l.storeBurst (burstPlaces form start words)).written } := by
  have hany : ((burstPlaces form start words).any fun ow => ow.2.high || ow.2.low) =
      words.any fun w => w.high || w.low := by
    rw [burstPlaces_of_fits hstart hfits, List.any_map]
    exact (List.any_map (f := Prod.fst) (p := fun w : DataWord => w.high || w.low)).symm.trans
      (by rw [List.zipIdx_map_fst])
  unfold Lane.storeBurst
  rw [hany]
  dsimp only
  rw [Lane.storeWords_frame]
  split <;> rfl

/-- A byte that no enabled value of the burst reaches keeps value and mark. -/
theorem Lane.storeBurst_unreached {i : Nat}
    (h : ∀ (k : Nat) (w : DataWord), words[k]? = some w → burstOffset form start k = i / 2 → storedByte w (i % 2) = none) :
    (l.storeBurst (burstPlaces form start words)).cell i = l.cell i := by
  by_cases hi : i < 128
  · have hcell : (l.storeBurst (burstPlaces form start words)).cell i =
        ((burstPlaces form start words).foldl Lane.storeWord l).cell i := by
      unfold Lane.storeBurst
      dsimp only
      split <;> rfl
    rw [hcell, burstPlaces_of_fits hstart hfits]
    refine Lane.storeWords_unreached _ l hi fun ow how hoffset => ?_
    obtain ⟨k, hword, hplace⟩ := mem_zipIdx_places how
    exact h k ow.2 hword (hplace.symm.trans hoffset)
  · simp [Lane.cell, Nat.not_lt.mp hi]

/-- Of the enabled values that reach a byte, the last one stands and is marked WRITTEN. -/
theorem Lane.storeBurst_last {i k : Nat} {w : DataWord} {b : Byte} (hi : i < 128) (hword : words[k]? = some w)
    (hoffset : burstOffset form start k = i / 2) (hstored : storedByte w (i % 2) = some b)
    (hlater : ∀ (later : Nat) (v : DataWord), k < later → words[later]? = some v →
      burstOffset form start later = i / 2 → storedByte v (i % 2) = none) :
    (l.storeBurst (burstPlaces form start words)).cell i = (some b, some true) := by
  have hcell : (l.storeBurst (burstPlaces form start words)).cell i =
      ((burstPlaces form start words).foldl Lane.storeWord l).cell i := by
    unfold Lane.storeBurst
    dsimp only
    split <;> rfl
  obtain ⟨hk, rfl⟩ := List.getElem?_eq_some_iff.mp hword
  have hsplit : words = words.take k ++ words[k] :: words.drop (k + 1) := by simp
  have hlen : (words.take k).length = k := by simp; omega
  rw [hcell, burstPlaces_of_fits hstart hfits, hsplit, List.zipIdx_append, List.map_append, List.zipIdx_cons,
    List.map_cons, hlen]
  refine Lane.storeWords_last _ _ _ l hi (by simpa using hoffset) (by simpa using hstored) fun x hx hxoffset => ?_
  obtain ⟨⟨v, j⟩, hmem, rfl⟩ := List.mem_map.mp hx
  have hj := List.mk_mem_zipIdx_iff_le_and_getElem?_sub.mp hmem
  refine hlater j v (by omega) ?_ hxoffset
  rw [← hj.2, List.getElem?_drop]
  congr 1
  omega

end

/-! ### LANE_BUF writes -/

section
variable {lane : Fin 16} {hdr : Header} {words : List DataWord} {s s' : State}

theorem Lane.open_iff (l : Lane) : l.open = true ↔ l.mode = .idle ∨ l.mode = .assembling := by
  rw [Lane.open, decide_eq_true_eq]

/-- A burst to an open lane, stored with what it drops recorded. -/
theorem laneBufEffect_open (h : s.lanes[lane].mode = .idle ∨ s.lanes[lane].mode = .assembling) :
    laneBufEffect lane hdr words s =
      let t := s.updLane lane fun l => l.storeBurst (burstPlaces hdr.form hdr.offset.toNat words)
      if burstOverruns hdr.form hdr.offset.toNat words.length then
        t.recordRefusal .lp laneBufWindow (laneIndex lane) hdr .overrun
      else t := by
  rw [laneBufEffect, if_pos ((Lane.open_iff _).mpr h)]

/-- A burst that stays in the buffer changes its lane only. -/
theorem exec_laneBufWrite_fits (h : s.Applies .lp ⟨laneBufWindow, laneIndex lane, hdr, words⟩ s')
    (hmode : s.lanes[lane].mode = .idle ∨ s.lanes[lane].mode = .assembling)
    (hfits : burstOverruns hdr.form hdr.offset.toNat words.length = false) :
    exec (.laneBufWrite .apply lane hdr words) s =
      .next (s'.updLane lane fun _ => s.lanes[lane].storeBurst (burstPlaces hdr.form hdr.offset.toNat words)) := by
  refine exec_of_applies_updLane h rfl ?_
  rw [shorten_of_le h.length_le, laneBufEffect_open (h.lanes_eq ▸ hmode)]
  dsimp only
  rw [hfits, if_neg Bool.false_ne_true]
  exact State.updLane_congr (by rw [h.lanes_eq])

end

theorem burstOverruns_linear {start count : Nat} (hstart : start ≤ 63) :
    burstOverruns .linear start count = decide (64 < start + count) := by
  simp [burstOverruns, Nat.not_lt.mpr hstart]

theorem burstOverruns_circular {start : Nat} (hstart : start ≤ 63) (count : Nat) :
    burstOverruns .circular start count = false := by
  simp [burstOverruns, hstart]

/-- Settles O7: in a LINEAR burst each offset has one word. -/
theorem linearBurstStoresItsBytes : Obligations.LinearBurstStoresItsBytes := by
  intro lane hdr words s s' happ hmode hform hend hstart
  let l := s.lanes[lane].storeBurst (burstPlaces hdr.form hdr.offset.toNat words)
  have hoffset : ∀ k, burstOffset hdr.form hdr.offset.toNat k = hdr.offset.toNat + k := fun k => by rw [hform]; rfl
  have hfits : ∀ k, k < words.length → burstOffset hdr.form hdr.offset.toNat k ≤ 63 := fun k hk => by
    rw [hoffset]; omega
  have hframe := Lane.storeBurst_frame hstart hfits s.lanes[lane]
  have hbyte : ∀ (k : Nat) (w : DataWord) (half : Nat), words[k]? = some w → half < 2 →
      l.cell (2 * (hdr.offset.toNat + k) + half) =
        ((storedByte w half).map fun b => (some b, some true)).getD
          (s.lanes[lane].cell (2 * (hdr.offset.toNat + k) + half)) := by
    intro k w half hword hhalf
    have hk : k < words.length := (List.getElem?_eq_some_iff.mp hword).1
    have hdiv : (2 * (hdr.offset.toNat + k) + half) / 2 = hdr.offset.toNat + k := by omega
    have hmod : (2 * (hdr.offset.toNat + k) + half) % 2 = half := by omega
    cases hstored : storedByte w half with
    | none =>
      refine Lane.storeBurst_unreached hstart hfits _ fun j v hv hj => ?_
      rw [hdiv, hoffset] at hj
      obtain rfl : j = k := by omega
      rw [hmod, Option.some.inj (hv.symm.trans hword), hstored]
    | some b =>
      refine Lane.storeBurst_last hstart hfits _ (by omega) hword (by rw [hdiv, hoffset]) (by rw [hmod, hstored])
        fun later v hlt _ hlater => ?_
      rw [hdiv, hoffset] at hlater
      omega
  refine ⟨l, exec_laneBufWrite_fits happ hmode ?_, ?_, ?_, fun k w hword => ?_, fun i hi => ?_⟩
  · rw [hform, burstOverruns_linear hstart]
    exact decide_eq_false (Nat.not_lt.mpr hend)
  · exact hframe.trans (congrArg (fun m => ({ s.lanes[lane] with mode := m, buffer := l.buffer, written := l.written } :
      Lane)) (congrArg Lane.mode hframe).symm)
  · exact congrArg Lane.mode hframe
  · obtain ⟨hbuffer, hwritten⟩ := Lane.cell_high (hbyte k w 0 hword (by decide))
    obtain ⟨hbuffer', hwritten'⟩ := Lane.cell_low (hbyte k w 1 hword (by decide))
    exact ⟨hbuffer, hwritten, hbuffer', hwritten'⟩
  · have hcell : l.cell i = s.lanes[lane].cell i := by
      refine Lane.storeBurst_unreached hstart hfits _ fun k w hword hk => ?_
      have hlt := (List.getElem?_eq_some_iff.mp hword).1
      rw [hoffset] at hk
      omega
    exact Prod.mk.inj hcell

/-- The position in the buffer of the high byte of word `k` of a CIRCULAR burst (R4). -/
def circularPlace (start k : Nat) : Nat := 2 * (start / 8 * 8 + (start + k) % 8)

theorem burstOffset_circular (start k : Nat) : burstOffset .circular start k = circularPlace start k / 2 := by
  simp only [burstOffset, circularPlace]
  omega

section
variable {start : Nat} {words : List DataWord} (hstart : start ≤ 63) (l : Lane) {half : Nat}
  {enabled : DataWord → Bool} {value : DataWord → Byte}
  (hstored : ∀ w, storedByte w half = if enabled w = true then some (value w) else none)

include hstart

theorem burstOffset_circular_le (k : Nat) (_ : k < words.length) : burstOffset .circular start k ≤ 63 := by
  simp only [burstOffset]
  omega

include hstored

/-- Of the enabled values of one half that go to a place of the chunk, the last one stands (R4). -/
theorem Lane.circularBurst_last (hhalf : half < 2) {k : Nat} {w : DataWord} (hword : words[k]? = some w) (hw : enabled w = true)
    (hlater : ∀ (later : Nat) (v : DataWord), k < later → words[later]? = some v →
      circularPlace start later = circularPlace start k → enabled v = false) :
    (l.storeBurst (burstPlaces .circular start words)).cell (circularPlace start k + half) =
      (some (value w), some true) := by
  have hdiv : ∀ j, burstOffset .circular start j = (circularPlace start k + half) / 2 ↔
      circularPlace start j = circularPlace start k := fun j => by
    rw [burstOffset_circular]
    simp only [circularPlace]
    omega
  have hmod : (circularPlace start k + half) % 2 = half := by
    simp only [circularPlace]
    omega
  refine Lane.storeBurst_last hstart (burstOffset_circular_le hstart) l ?_ hword ((hdiv k).mpr rfl)
    (by rw [hmod, hstored, if_pos hw]) fun later v hlt hv hoffset => ?_
  · simp only [circularPlace]
    omega
  · rw [hmod, hstored, hlater later v hlt hv ((hdiv later).mp hoffset), if_neg Bool.false_ne_true]

/-- A byte of one half that no enabled value reaches keeps value and mark. -/
theorem Lane.circularBurst_unreached {i : Nat} (hi : i % 2 = half)
    (h : ∀ (k : Nat) (w : DataWord), words[k]? = some w → circularPlace start k + half = i → enabled w = false) :
    (l.storeBurst (burstPlaces .circular start words)).cell i = l.cell i := by
  refine Lane.storeBurst_unreached hstart (burstOffset_circular_le hstart) l fun k w hword hoffset => ?_
  have hplace : circularPlace start k + half = i := by
    rw [burstOffset_circular] at hoffset
    simp only [circularPlace] at hoffset ⊢
    omega
  rw [hi, hstored, h k w hword hplace, if_neg Bool.false_ne_true]

end

/-- Settles O8: of the words that go to one place, a later pass comes 8 words later. -/
theorem circularBurstStaysInItsChunk : Obligations.CircularBurstStaysInItsChunk := by
  intro lane hdr words s s' happ hmode hform hstart place stores
  let l := s.lanes[lane].storeBurst (burstPlaces .circular hdr.offset.toNat words)
  have hframe := Lane.storeBurst_frame hstart (burstOffset_circular_le (words := words) hstart) s.lanes[lane]
  have hstores : ∀ (half : Nat) (enabled : DataWord → Bool) (value : DataWord → Byte), half < 2 →
      (∀ w, storedByte w half = if enabled w = true then some (value w) else none) → stores l half enabled value :=
    fun half enabled value hhalf hstored =>
      ⟨fun k w hword hw hlater => Prod.mk.inj (Lane.circularBurst_last hstart _ hstored hhalf hword hw hlater),
        fun i hi h => Prod.mk.inj (Lane.circularBurst_unreached hstart _ hstored hi h)⟩
  have hhigh : stores l 0 (fun w => w.high) fun w => w.value.extractLsb' 8 8 := hstores 0 _ _ (by decide) fun _ => rfl
  have hlow : stores l 1 (fun w => w.low) fun w => w.value.extractLsb' 0 8 := hstores 1 _ _ (by decide) fun _ => rfl
  refine ⟨l, ?_, ?_, ?_, hhigh, hlow, fun k w hword hlast hwhigh hwlow => ?_, fun i hi => ?_⟩
  · have hexec := exec_laneBufWrite_fits happ hmode (by rw [hform]; exact burstOverruns_circular hstart _)
    rwa [hform] at hexec
  · exact hframe.trans (congrArg (fun m => ({ s.lanes[lane] with mode := m, buffer := l.buffer, written := l.written } :
      Lane)) (congrArg Lane.mode hframe).symm)
  · exact congrArg Lane.mode hframe
  · have hnolater : ∀ (later : Nat) (v : DataWord), k < later → words[later]? = some v → place later = place k →
        False := fun later v hlt hv hplace => by
      have hlen := (List.getElem?_eq_some_iff.mp hv).1
      simp only [place] at hplace
      omega
    obtain ⟨hbuffer, hwritten⟩ := hhigh.1 k w hword hwhigh fun j v hlt hv hj => (hnolater j v hlt hv hj).elim
    obtain ⟨hbuffer', hwritten'⟩ := hlow.1 k w hword hwlow fun j v hlt hv hj => (hnolater j v hlt hv hj).elim
    exact ⟨hbuffer, hwritten, hbuffer', hwritten'⟩
  · have hcell : l.cell i = s.lanes[lane].cell i := by
      refine Lane.storeBurst_unreached hstart (burstOffset_circular_le hstart) _ fun k w hword hk => ?_
      simp only [burstOffset] at hk
      omega
    exact Prod.mk.inj hcell

/-- Settles O9: the lane's state and the burst's places decide; what overruns is dropped before anything is stored. -/
theorem bufferWriteRefusals : Obligations.BufferWriteRefusals := by
  refine ⟨fun lane hdr words s s' happ hidle hassembling => ?busy,
    fun lane hdr words s hopen hwords hmode hform hstart hend => ?tail, fun lane hdr words s s' happ hmode hfar => ?far⟩
  case busy =>
    refine exec_of_applies_refused happ rfl ?_
    rw [laneBufEffect, if_neg]
    rw [Lane.open_iff, happ.lanes_eq]
    exact fun h => h.elim hidle hassembling
  case tail =>
    have htake : (words.take (64 - hdr.offset.toNat)).length = 64 - hdr.offset.toNat := by
      rw [List.length_take]
      omega
    let w : List DataWord → PostedWrite := fun ws => ⟨laneBufWindow, laneIndex lane, hdr, ws⟩
    have happ := hopen.applies (w words) hwords
    have hfits : burstOverruns hdr.form hdr.offset.toNat (words.take (64 - hdr.offset.toNat)).length = false := by
      rw [hform, burstOverruns_linear hstart, htake]
      exact decide_eq_false (by omega)
    refine ⟨_, exec_laneBufWrite_fits (hopen.applies (w _) (Nat.le_trans (List.length_take_le _ _) (Nat.sub_le _ _))) hmode
      hfits, ?_⟩
    rw [hform, burstPlaces_linear_take hstart, ← State.recordRefusal_eq]
    refine exec_of_applies happ rfl ?_ ((State.recordRefusal_held ..).trans (by rw [State.updLane_port]))
    rw [shorten_of_le happ.length_le, laneBufEffect_open (happ.lanes_eq ▸ hmode)]
    dsimp only
    rw [hform, burstOverruns_linear hstart, if_pos (decide_eq_true hend)]
    exact congrArg (State.recordRefusal · _ _ _ _ _) (State.updLane_congr (by rw [happ.lanes_eq]))
  case far =>
    refine exec_of_applies_refused happ rfl ?_
    rw [shorten_of_le happ.length_le, laneBufEffect_open (happ.lanes_eq ▸ hmode), burstPlaces_of_far hfar,
      State.updLane_eq_self rfl]
    exact if_pos (by simp [burstOverruns, hfar])

/-! ### WRAP, ABANDON and RESET_LANE -/

section
variable {lane : Fin 16} {s : State}

/-- What the record checks answer of a lane's record, as policy, link and generation stand (R5). -/
def State.checksOf (s : State) (l : Lane) : Except CheckCode WrapRequest :=
  recordChecks l.buffer l.written s.policy s.link.state l.generation

theorem wrapEffect_fails (h : s.lanes[lane].mode = .assembling) {c : CheckCode}
    (herr : s.checksOf s.lanes[lane] = .error c) : wrapEffect lane s = s.laneResult lane c.result := by
  unfold State.checksOf at herr
  simp only [wrapEffect, h, herr]

theorem wrapEffect_passes (h : s.lanes[lane].mode = .assembling) {r : WrapRequest}
    (hok : s.checksOf s.lanes[lane] = .ok r) :
    wrapEffect lane s =
      if s.lanes[lane].orphan then s.laneResult lane .busy else s.updLane lane fun x => { x with mode := .queued r } := by
  unfold State.checksOf at hok
  simp only [wrapEffect, h, hok]

/-- WRAP elsewhere (R6). -/
theorem wrapEffect_elsewhere (h : s.lanes[lane].mode ≠ .assembling) :
    wrapEffect lane s = s.laneResult lane (if s.lanes[lane].mode = .idle then .empty else .busy) := by
  unfold wrapEffect
  dsimp only
  split
  · next hassembling => exact absurd hassembling h
  · next hidle => rw [if_pos hidle]
  · next hidle => rw [if_neg hidle]

theorem abandonEffect_elsewhere (hassembling : s.lanes[lane].mode ≠ .assembling)
    (hqueued : ∀ r, s.lanes[lane].mode ≠ .queued r) : abandonEffect lane s = s.laneResult lane .busy := by
  unfold abandonEffect
  split
  · next h => exact absurd h hassembling
  · next r h => exact absurd h (hqueued r)
  · rfl

/-- The lane after a RESET_LANE, by the marks and numbers that R9 and R10 give. -/
theorem Lane.resetLane_eq (l : Lane) : l.resetLane =
    { mode := .idle, buffer := Vector.replicate 128 0, written := Vector.replicate 128 false, seq := l.seq
      generation := if l.generation = 255 then 0 else l.generation + 1, orphan := l.orphan || l.inService
      result := .reset, attention := false } := rfl

theorem resetLaneEffect_waiting {a : Awaited} {timer : Nat} (h : s.lanes[lane].mode = .waitResponse a timer) :
    resetLaneEffect lane s = (s.clearAwaiting a.number).updLane lane Lane.resetLane := by
  simp only [resetLaneEffect, h]

theorem resetLaneEffect_elsewhere (h : ∀ a timer, s.lanes[lane].mode ≠ .waitResponse a timer) :
    resetLaneEffect lane s = s.updLane lane Lane.resetLane := by
  unfold resetLaneEffect
  dsimp only
  split
  · next a timer hwait => exact absurd hwait (h a timer)
  · rfl

theorem Lane.inService_iff (l : Lane) :
    l.inService = true ↔ l.mode = .wrapping ∨ ∃ a : AdviceRequest, a.taken = true ∧ l.mode = .fallback a := by
  unfold Lane.inService
  cases l.mode with
  | fallback a => exact ⟨fun h => .inr ⟨a, h, rfl⟩, fun h => by simpa using h⟩
  | _ => simp

end

/-- Settles O10: the state of the lane, then what the checks answer. -/
theorem wrapIsAcceptedOrRefused : Obligations.WrapIsAcceptedOrRefused := by
  refine ⟨fun lane hdr extra s s' happ hmode => ?assembling, fun lane hdr extra s s' happ hmode => ?elsewhere⟩
  case assembling =>
    obtain ⟨hlanes, hpolicy, hlink, -⟩ := happ.fields
    have hchecks : s'.checksOf s'.lanes[lane] = s.checksOf s.lanes[lane] := by
      rw [State.checksOf, hlanes, hpolicy, hlink]
      rfl
    refine ⟨fun r hok horphan => ?queued, fun r hok horphan => ?orphan, fun c herr => ?failed⟩
    case queued =>
      refine exec_of_applies_updLane happ rfl ((wrapEffect_passes (hlanes ▸ hmode) (hchecks.trans hok)).trans ?_)
      rw [hlanes, horphan, if_neg Bool.false_ne_true]
    case orphan =>
      refine exec_of_applies_updLane happ rfl ((wrapEffect_passes (hlanes ▸ hmode) (hchecks.trans hok)).trans ?_)
      rw [hlanes, horphan, if_pos rfl]
      rfl
    case failed => exact exec_of_applies_updLane happ rfl (wrapEffect_fails (hlanes ▸ hmode) (hchecks.trans herr))
  case elsewhere =>
    refine exec_of_applies_updLane happ rfl ((wrapEffect_elsewhere (happ.lanes_eq ▸ hmode)).trans ?_)
    rw [happ.lanes_eq]
    rfl

/-- Settles O14: ABANDON by the lane's state; RESET_LANE with the awaited record of a waiting lane let go before. -/
theorem abandonAndResetReachIdle : Obligations.AbandonAndResetReachIdle := by
  refine ⟨fun lane hdr extra s s' happ => ⟨fun hmode => ?abandoned, fun ⟨hassembling, hqueued⟩ => ?busy⟩,
    fun lane hdr extra s s' happ => ?reset⟩
  case abandoned =>
    refine exec_of_applies_updLane happ rfl ?_
    rcases hmode with h | ⟨r, h⟩ <;> simp only [abandonEffect, happ.lanes_eq, h] <;> rfl
  case busy =>
    exact exec_of_applies_updLane happ rfl
      (abandonEffect_elsewhere (happ.lanes_eq ▸ hassembling) (happ.lanes_eq ▸ hqueued))
  case reset =>
    refine ⟨s.lanes[lane].orphan || s.lanes[lane].inService, by rw [Bool.or_eq_true, Lane.inService_iff], ?_⟩
    have hlane : s'.lanes[lane] = s.lanes[lane] := by rw [happ.lanes_eq]
    split
    · next a timer hwait =>
      refine exec_of_applies happ rfl ((resetLaneEffect_waiting (hlane ▸ hwait)).trans (State.updLane_congr ?_))
        (by rw [State.updLane_port, State.updStore_port])
      exact (congrArg Lane.resetLane hlane).trans ((Lane.resetLane_eq _).trans (by rw [← hlane]; rfl))
    · next helse =>
      refine exec_of_applies_updLane happ rfl ((resetLaneEffect_elsewhere (hlane ▸ helse)).trans (State.updLane_congr ?_))
      rw [hlane, Lane.resetLane_eq]

end Sys2Proof.Machine
end

section
/-! PROOFS. Malformed commands, the shop commands and the writes of control items (R88, R89, R95, R112, R134, R146, R152,
R180, R184 to R186), with the runs of the link monitor (R132, R133, R136). -/

namespace Sys2Proof.Machine

/-- The engine is untouched by the place that an applied write leaves. -/
theorem State.Applies.engine_eq {s s' : State} {p : PortId} {w : PostedWrite} (h : s.Applies p w s') :
    s'.engine = s.engine := by
  obtain ⟨-, -, -, ⟨-, rfl⟩ | ⟨rest, -, rfl⟩⟩ := h <;> cases p <;> rfl

/-! ### Commands that name nothing (R10, R95, R112, R185) -/

/-- A word that is 0 or above the last command word is none of the commands. -/
theorem word_ne_of_out_of_range {c : Word} {last k : Nat} (h : c = 0 ∨ last < c.toNat) (hpos : 0 < k) (hk : k ≤ last)
    (hlast : last < 65536) : c ≠ BitVec.ofNat 16 k := by
  rintro rfl
  have hval : (BitVec.ofNat 16 k).toNat = k := by
    rw [BitVec.toNat_ofNat]
    omega
  rcases h with h | h
  · have hzero : (BitVec.ofNat 16 k).toNat = 0 := congrArg BitVec.toNat h
    omega
  · omega

theorem laneCmdFault_unnamed {c : Word} (h : c = 0 ∨ 3 < c.toNat) (ws : List Word) :
    laneCmdFault (c :: ws) = some .badCommand :=
  if_neg <| not_or_intro (word_ne_of_out_of_range h (k := 1) (by decide) (by decide) (by decide)) <|
    not_or_intro (word_ne_of_out_of_range h (k := 2) (by decide) (by decide) (by decide))
      (word_ne_of_out_of_range h (k := 3) (by decide) (by decide) (by decide))

theorem confirmFault_short {ws : List Word} (h : ws.length < 3) : confirmFault ws = some .badFormat := by
  match ws, h with
  | [], _ | [_], _ | [_, _], _ => rfl

theorem confirmFault_unnamed {c : Word} (h : c = 0 ∨ 3 < c.toNat) {ws : List Word} (hlen : 3 ≤ (c :: ws).length) :
    confirmFault (c :: ws) = some .badCommand := by
  match ws, hlen with
  | _ :: _ :: _, _ =>
    exact if_neg <| not_or_intro (word_ne_of_out_of_range h (k := 1) (by decide) (by decide) (by decide)) <|
      not_or_intro (word_ne_of_out_of_range h (k := 2) (by decide) (by decide) (by decide))
        (word_ne_of_out_of_range h (k := 3) (by decide) (by decide) (by decide))

theorem spillFault_short {ws : List Word} (h : ws.length < 3) : spillFault ws = some .badFormat := by
  match ws, h with
  | [], _ | [_], _ | [_, _], _ => rfl

theorem spillFault_unnamed {c : Word} (h : c = 0 ∨ 2 < c.toNat) {ws : List Word} (hlen : 3 ≤ (c :: ws).length) :
    spillFault (c :: ws) = some .badCommand := by
  match ws, hlen with
  | _ :: _ :: _, _ =>
    exact if_neg <| not_or_intro (word_ne_of_out_of_range h (k := 1) (by decide) (by decide) (by decide))
      (word_ne_of_out_of_range h (k := 2) (by decide) (by decide) (by decide))

theorem shopCmdFault_unnamed {c : Word} (h : c = 0 ∨ 5 < c.toNat) (ws : List Word) :
    shopCmdFault (c :: ws) = some .badCommand := by
  have hne : ∀ k, 0 < k → k ≤ 5 → c ≠ BitVec.ofNat 16 k := fun k hpos hk =>
    word_ne_of_out_of_range h hpos hk (by decide)
  exact if_neg <| not_or_intro (hne 1 (by decide) (by decide)) <| not_or_intro (hne 2 (by decide) (by decide)) <|
    not_or_intro (hne 3 (by decide) (by decide)) <| not_or_intro (hne 4 (by decide) (by decide))
      (hne 5 (by decide) (by decide))

section
variable {words : List DataWord} {reason : Reason} (s : State)

theorem laneCmdBadEffect_fault (h : laneCmdFault (values words) = some reason) (lane : Fin 16) (hdr : Header) :
    laneCmdBadEffect lane hdr words s = s.recordRefusal .lp laneCmdWindow (laneIndex lane) hdr reason := by
  simp only [laneCmdBadEffect, h]

theorem confirmBadEffect_fault (h : confirmFault (values words) = some reason) (index : Word) (hdr : Header) :
    confirmBadEffect index hdr words s = s.recordRefusal .up confirmWindow index hdr reason := by
  simp only [confirmBadEffect, h]

theorem spillBadEffect_fault (h : spillFault (values words) = some reason) (index : Word) (hdr : Header) :
    spillBadEffect index hdr words s = s.recordRefusal .lp spillWindow index hdr reason := by
  simp only [spillBadEffect, h]

theorem shopBadEffect_fault (h : shopCmdFault (values words) = some reason) (index : Word) (hdr : Header) :
    shopBadEffect index hdr words s = s.recordRefusal .up shopCmdWindow index hdr reason := by
  simp only [shopBadEffect, h]

end

theorem length_values (words : List DataWord) : (values words).length = words.length := List.length_map ..

/-- Settles O15: each window's fault is recorded by its block. -/
theorem malformedCommandIsDropped : Obligations.MalformedCommandIsDropped := by
  refine ⟨fun lane hdr words s s' happ => ?lane, fun index hdr words s s' happ => ?confirm,
    fun index hdr words s s' happ => ?spill, fun index hdr words s s' happ => ?shop⟩
  case lane =>
    have refused : ∀ reason, laneCmdFault (values words) = some reason →
        exec (.laneCmdBadCommand .apply lane hdr words) s =
          .next (s'.updPort .lp fun q => q.refused (refusal laneCmdWindow (laneIndex lane) hdr reason)) :=
      fun reason h => exec_of_applies_refused happ rfl <| by
        rw [shorten_of_le happ.length_le]
        exact laneCmdBadEffect_fault s' h lane hdr
    exact ⟨fun h => refused _ (by rw [h]; rfl), fun w rest h hw => refused _ (by rw [h]; exact laneCmdFault_unnamed hw _)⟩
  case confirm =>
    have refused : ∀ reason, confirmFault (values words) = some reason →
        exec (.confirmMalformed .apply index hdr words) s =
          .next (s'.updPort .up fun q => q.refused (refusal confirmWindow index hdr reason)) :=
      fun reason h => exec_of_applies_refused happ rfl <| by
        rw [shorten_of_le happ.length_le]
        exact confirmBadEffect_fault s' h index hdr
    refine ⟨fun h => refused _ (confirmFault_short (by rwa [length_values])), fun w rest h hlen hw => refused _ ?_⟩
    rw [← length_values, h] at hlen
    rw [h]
    exact confirmFault_unnamed hw hlen
  case spill =>
    have refused : ∀ reason, spillFault (values words) = some reason →
        exec (.spillCommandRefused .apply index hdr words) s =
          .next (s'.updPort .lp fun q => q.refused (refusal spillWindow index hdr reason)) :=
      fun reason h => exec_of_applies_refused happ rfl <| by
        rw [shorten_of_le happ.length_le]
        exact spillBadEffect_fault s' h index hdr
    refine ⟨fun h => refused _ (spillFault_short (by rwa [length_values])), fun w rest h hlen hw => refused _ ?_⟩
    rw [← length_values, h] at hlen
    rw [h]
    exact spillFault_unnamed hw hlen
  case shop =>
    have refused : ∀ reason, shopCmdFault (values words) = some reason →
        exec (.shopCmdMalformed .apply index hdr words) s =
          .next (s'.updPort .up fun q => q.refused (refusal shopCmdWindow index hdr reason)) :=
      fun reason h => exec_of_applies_refused happ rfl <| by
        rw [shorten_of_le happ.length_le]
        exact shopBadEffect_fault s' h index hdr
    exact ⟨fun h => refused _ (by rw [h]; rfl), fun w rest h hw => refused _ (by rw [h]; exact shopCmdFault_unnamed hw _)⟩

/-! ### The link monitor (R132 to R136) -/

/-- The monitor's new value, with LINK where the link state changes (R136). -/
theorem State.moveLink_eq (s : State) (l : Link) : s.moveLink l = { s with
    link := l, up := if l.state = s.link.state then s.up else s.up.signalled .link } := by
  unfold State.moveLink
  split <;> rfl

/-! Single misses and signs. -/

theorem Link.miss_doubt (m k threshold : Nat) : Link.miss ⟨.doubt, m, k⟩ threshold =
    if threshold ≤ m + 1 then ⟨.outage, 0, 0⟩ else ⟨.doubt, m + 1, 0⟩ := rfl

theorem Link.miss_outage (k threshold : Nat) : Link.miss ⟨.outage, 0, k⟩ threshold = ⟨.outage, 0, 0⟩ := rfl

theorem Link.sign_doubt (m k threshold : Nat) : Link.sign ⟨.doubt, m, k⟩ threshold =
    if threshold ≤ k + 1 then ⟨.contact, 0, 0⟩ else ⟨.doubt, 0, k + 1⟩ := rfl

theorem Link.sign_outage (m k threshold : Nat) : Link.sign ⟨.outage, m, k⟩ threshold =
    if threshold ≤ k + 1 then ⟨.contact, 0, 0⟩ else ⟨.outage, m, k + 1⟩ := rfl

section
variable (threshold : Nat)

/-- A run of misses from DOUBT (R132). -/
theorem Link.misses_doubt (m k n : Nat) : Nat.repeat (fun l : Link => l.miss threshold) n ⟨.doubt, m, k⟩ =
    if n = 0 then ⟨.doubt, m, k⟩ else if m + n < threshold then ⟨.doubt, m + n, 0⟩ else ⟨.outage, 0, 0⟩ := by
  induction n with
  | zero => rfl
  | succ n ih =>
    rw [Nat.repeat, ih, if_neg (Nat.succ_ne_zero n)]
    by_cases hbefore : n = 0 ∨ m + n < threshold
    · have hlink : ∃ k', (if n = 0 then ⟨.doubt, m, k⟩ else if m + n < threshold then ⟨.doubt, m + n, 0⟩
          else ⟨.outage, 0, 0⟩ : Link) = ⟨.doubt, m + n, k'⟩ := by
        rcases Nat.eq_zero_or_pos n with rfl | hn
        · exact ⟨k, rfl⟩
        · exact ⟨0, by rw [if_neg (Nat.ne_of_gt hn), if_pos (hbefore.resolve_left (Nat.ne_of_gt hn))]⟩
      obtain ⟨k', hk'⟩ := hlink
      rw [hk', Link.miss_doubt]
      by_cases hlast : threshold ≤ m + n + 1
      · rw [if_pos hlast, if_neg (by omega)]
      · rw [if_neg hlast, if_pos (by omega), Nat.add_assoc]
    · rw [if_neg (by omega), if_neg (by omega), if_neg (by omega)]
      rfl

/-- A run of signs from DOUBT (R133). -/
theorem Link.signs_doubt (m k n : Nat) :
    Nat.repeat (fun l : Link => l.sign threshold) n ⟨.doubt, m, k⟩ =
      if n = 0 then ⟨.doubt, m, k⟩ else if k + n < threshold then ⟨.doubt, 0, k + n⟩ else ⟨.contact, 0, 0⟩ := by
  induction n with
  | zero => rfl
  | succ n ih =>
    rw [Nat.repeat, ih, if_neg (Nat.succ_ne_zero n)]
    by_cases hbefore : n = 0 ∨ k + n < threshold
    · have hlink : ∃ m', (if n = 0 then ⟨.doubt, m, k⟩ else if k + n < threshold then ⟨.doubt, 0, k + n⟩
          else ⟨.contact, 0, 0⟩ : Link) = ⟨.doubt, m', k + n⟩ := by
        rcases Nat.eq_zero_or_pos n with rfl | hn
        · exact ⟨m, rfl⟩
        · exact ⟨0, by rw [if_neg (Nat.ne_of_gt hn), if_pos (hbefore.resolve_left (Nat.ne_of_gt hn))]⟩
      obtain ⟨m', hm'⟩ := hlink
      rw [hm', Link.sign_doubt]
      by_cases hlast : threshold ≤ k + n + 1
      · rw [if_pos hlast, if_neg (by omega)]
      · rw [if_neg hlast, if_pos (by omega), Nat.add_assoc]
    · rw [if_neg (by omega), if_neg (by omega), if_neg (by omega)]
      rfl

theorem repeat_fixed {α : Type} {f : α → α} {a : α} (h : f a = a) (n : Nat) : Nat.repeat f n a = a := by
  induction n with
  | zero => rfl
  | succ n ih => rw [Nat.repeat, ih, h]

theorem repeat_succ_eq {α : Type} (f : α → α) (n : Nat) (a : α) : Nat.repeat f (n + 1) a = Nat.repeat f n (f a) := by
  induction n with
  | zero => rfl
  | succ n ih => rw [Nat.repeat, ih, Nat.repeat]

/-- A run of misses from CONTACT: the first makes DOUBT with one miss, or OUTAGE at once (R132). -/
theorem Link.misses_contact (hpos : 1 ≤ threshold) (n : Nat) :
    Nat.repeat (fun l : Link => l.miss threshold) n ⟨.contact, 0, 0⟩ =
      if n = 0 then ⟨.contact, 0, 0⟩ else if n < threshold then ⟨.doubt, n, 0⟩ else ⟨.outage, 0, 0⟩ := by
  cases n with
  | zero => rfl
  | succ n =>
    rw [repeat_succ_eq, if_neg (Nat.succ_ne_zero n)]
    by_cases hone : threshold ≤ 1
    · have hfirst : Link.miss ⟨.contact, 0, 0⟩ threshold = ⟨.outage, 0, 0⟩ := if_pos hone
      rw [hfirst, if_neg (by omega), repeat_fixed (Link.miss_outage _ _)]
    · have hfirst : Link.miss ⟨.contact, 0, 0⟩ threshold = ⟨.doubt, 1, 0⟩ := if_neg hone
      rw [hfirst, Link.misses_doubt, Nat.add_comm 1 n]
      split
      · next hn =>
        subst hn
        rw [if_pos (by omega)]
      · rfl

/-- A run of signs from OUTAGE (R133). -/
theorem Link.signs_outage (hpos : 1 ≤ threshold) (n : Nat) :
    Nat.repeat (fun l : Link => l.sign threshold) n ⟨.outage, 0, 0⟩ =
      if n < threshold then ⟨.outage, 0, n⟩ else ⟨.contact, 0, 0⟩ := by
  induction n with
  | zero => rw [if_pos (by omega)]; rfl
  | succ n ih =>
    rw [Nat.repeat, ih]
    by_cases hbefore : n < threshold
    · rw [if_pos hbefore, Link.sign_outage]
      by_cases hlast : threshold ≤ n + 1
      · rw [if_pos hlast, if_neg (by omega)]
      · rw [if_neg hlast, if_pos (by omega)]
    · rw [if_neg hbefore, if_neg (by omega)]
      rfl

end

/-- Settles O41: the runs by induction on their length, the event by the change of state. -/
theorem runsOfMissesAndSignsMoveTheLink : Obligations.RunsOfMissesAndSignsMoveTheLink := by
  refine ⟨fun threshold n hpos => ⟨Link.misses_contact threshold hpos n, Link.signs_outage threshold hpos n,
    fun m hm hn => ?undone, fun m k => ⟨Link.misses_doubt threshold m k n, Link.signs_doubt threshold m k n⟩,
    repeat_fixed (Link.miss_outage _ _) n, repeat_fixed rfl n⟩, fun s => ⟨s.moveLink_eq _, s.moveLink_eq _⟩⟩
  case undone =>
    refine (congrArg (Link.miss · m) (Link.signs_outage threshold hpos n)).trans ?_
    rw [if_pos hn]
    rfl

/-! ### The shop commands (R134, R146, R152) -/

/-- Settles O40: CLOSE, RESUME and the two link commands have one block each. -/
theorem shopCommandsReachTheirBlocks : Obligations.ShopCommandsReachTheirBlocks := by
  intro index hdr extra s s'
  refine ⟨fun happ => ⟨fun hpending => ?close, fun hpending => ?busy⟩, fun happ => ?resume, fun happ => ?down,
    fun happ => ?up⟩
  case close =>
    obtain ⟨-, -, -, -, -, -, -, hbatch, -⟩ := happ.fields
    refine exec_of_applies happ rfl ((if_neg (by rw [hbatch, hpending]; decide)).trans ?_) rfl
    rw [← hbatch]
    rfl
  case busy =>
    obtain ⟨-, -, -, -, -, -, -, hbatch, -⟩ := happ.fields
    exact exec_of_applies_refused happ rfl (if_pos (by rw [hbatch, hpending]))
  case resume =>
    obtain ⟨-, -, -, -, -, -, -, -, hintake, -⟩ := happ.fields
    refine exec_of_applies happ rfl ?_ rfl
    rw [← hintake]
    rfl
  case down =>
    obtain ⟨-, -, hlink, -⟩ := happ.fields
    rw [exec_of_applies happ rfl rfl (State.moveLink_held ..), State.moveLink_eq, hlink]
    simp only [eq_comm]
  case up =>
    obtain ⟨-, -, hlink, -⟩ := happ.fields
    rw [exec_of_applies happ rfl rfl (State.moveLink_held ..), State.moveLink_eq, hlink]
    simp only [eq_comm]

/-! ### Writes of control items -/

section
variable {p : PortId} {target : Target} {index : Word} {hdr : Header} {need : Nat} {words : List DataWord}
  {effect : State → State} {s s' t : State} {c : Instr}

/-- The command of a control write that is too short for its item (R180). -/
theorem exec_control_short (h : s.Applies p ⟨target, index, hdr, words⟩ s')
    (hexec : exec c s = .next (s.portWrite p .apply ⟨target, index, hdr, words⟩
      (controlEffect p target index hdr need words effect))) (hshort : words.length < need) :
    exec c s = .next (s'.updPort p fun q => q.refused (refusal target index hdr .badFormat)) :=
  exec_of_applies_refused h hexec (if_pos hshort)

/-- The command of a control write that holds its item's words (R180). -/
theorem exec_control_enough (h : s.Applies p ⟨target, index, hdr, words⟩ s')
    (hexec : exec c s = .next (s.portWrite p .apply ⟨target, index, hdr, words⟩
      (controlEffect p target index hdr need words effect))) (henough : need ≤ words.length) (heffect : effect s' = t)
    (hheld : (t.port p).held = (s'.port p).held) : exec c s = .next t :=
  exec_of_applies h hexec ((if_neg (Nat.not_lt.mpr henough)).trans heffect) hheld

end

/-- The 32-bit value of two data words is their bits, the first word's above (R191). -/
theorem longAt_cons (hi lo : DataWord) (more : List DataWord) : longAt (hi :: lo :: more) = hi.value ++ lo.value := by
  apply BitVec.eq_of_toNat_eq
  have hhi := hi.value.isLt
  have hlo := lo.value.isLt
  simp only [longAt, wordAt, values, List.map_cons, List.getElem?_cons_zero, List.getElem?_cons_succ, Option.getD_some,
    BitVec.toNat_ofNat, BitVec.toNat_append]
  rw [← Nat.shiftLeft_add_eq_or_of_lt (by omega), Nat.shiftLeft_eq]
  omega

/-- Settles O46: each item has its own effect on the port. -/
theorem portItemsAreClearedAndReplaced : Obligations.PortItemsAreClearedAndReplaced := by
  intro p hdr words s s'
  refine ⟨fun happ => ⟨fun hi lo more hwords => ?clear, fun hshort => exec_control_short happ rfl hshort⟩,
    fun happ => ⟨fun hi lo more hwords => ?mask, fun hshort => exec_control_short happ rfl hshort⟩, fun happ => ?status⟩
  case clear =>
    subst hwords
    refine exec_control_enough happ rfl (by simp) ?_ (by rw [State.updPort_port])
    rw [longAt_cons]
    rfl
  case mask =>
    subst hwords
    refine exec_control_enough happ rfl (by simp) ?_ (by rw [State.updPort_port])
    rw [longAt_cons]
    rfl
  case status => exact exec_of_applies happ rfl rfl (by rw [State.updPort_port])

theorem State.evalHigh_eq (s : State) : s.evalHigh =
    if s.store.armed && highReached s.store s.cfg then
      { s with store := { s.store with armed := false }, lp := s.lp.signalled .storeHigh, up := s.up.signalled .storeHigh }
    else s := by
  unfold State.evalHigh
  split <;> rfl

/-- The high-mark flag after an evaluation of the low marks (R89). -/
theorem State.evalLow_eq (s : State) : s.evalLow =
    { s with store := { s.store with armed := s.store.armed || bothLow s.store s.cfg } } := by
  have harms : ∀ armed low : Bool, (!armed && low) = true → (armed || low) = true := by decide
  have hkeeps : ∀ armed low : Bool, (!armed && low) ≠ true → (armed || low) = armed := by decide
  unfold State.evalLow
  by_cases h : (!s.store.armed && bothLow s.store s.cfg) = true
  · rw [if_pos h, harms _ _ h]
    rfl
  · rw [if_neg h, hkeeps _ _ h]

theorem highReached_iff (st : Store) (cfg : Settings) : highReached st cfg = true ↔
    cfg.highSlot ≤ st.slotsUsed ∨ cfg.highEntry ≤ st.entriesUsed := by
  rw [highReached, Bool.or_eq_true, decide_eq_true_eq, decide_eq_true_eq]

/-- Settles O43: the clamped marks are stored, and the flag's state decides which marks are evaluated. -/
theorem watermarksAreClampedAndEvaluated : Obligations.WatermarksAreClampedAndEvaluated := by
  intro index hdr words s s' happ
  refine ⟨fun hshort => exec_control_short happ rfl hshort, fun hs ls he le more hwords => ?stored⟩
  case stored =>
    subst hwords
    intro highSlot highEntry cfg high low
    obtain ⟨-, -, -, hstore, -, hcfg, -⟩ := happ.fields
    let t : State := { s' with cfg := cfg }
    have heffect : watermarksEffect (hs :: ls :: he :: le :: more) s' =
        if s.store.armed = true then t.evalHigh else t.evalLow := by
      have hset : s'.setCfg (storedMarks hs.value.toNat ls.value.toNat he.value.toNat le.value.toNat s'.cfg) = t := by
        rw [hcfg]
        rfl
      rw [← hstore, ← hset]
      rfl
    have hhigh : highReached t.store t.cfg = decide high := by
      rw [← Bool.coe_iff_coe, highReached_iff, decide_eq_true_eq, show t.store = s.store from hstore]
    have hlow : bothLow t.store t.cfg = decide low := by
      rw [show t.store = s.store from hstore, Bool.decide_and]
      rfl
    refine exec_control_enough happ rfl (by simp) (heffect.trans ?_) ?_
    · cases harmed : s.store.armed with
      | false =>
        rw [if_neg Bool.false_ne_true, if_neg (fun h => Bool.false_ne_true h.1), State.evalLow_eq, hlow,
          show t.store = s.store from hstore, harmed]
      | true =>
        rw [if_pos rfl, State.evalHigh_eq, show t.store.armed = true from hstore ▸ harmed, hhigh]
        by_cases hyes : high
        · rw [if_pos (by simpa using hyes), if_pos ⟨rfl, hyes⟩, ← hstore]
        · rw [if_neg (by simpa using hyes), if_neg (fun h => hyes h.2), Bool.true_or, ← harmed, ← hstore]
    · split <;> rfl

theorem configEffect_eq (item : ConfigItem) (words : List DataWord) (s : State) : configEffect item words s =
    { s with
      cfg := storedConfig item (values words) s.cfg
      engine := if item = .rewrapShare then s.engine.within (storedConfig item (values words) s.cfg).rewrapShare
        else s.engine } := by
  unfold configEffect
  dsimp only
  split <;> rfl

theorem exists_words_two {words : List DataWord} (h : 2 ≤ words.length) : ∃ a b more, words = a :: b :: more := by
  match words, h with
  | a :: b :: more, _ => exact ⟨a, b, more, rfl⟩

theorem exists_words_three {words : List DataWord} (h : 3 ≤ words.length) :
    ∃ a b c more, words = a :: b :: c :: more := by
  match words, h with
  | a :: b :: c :: more, _ => exact ⟨a, b, c, more, rfl⟩

theorem storedConfig_ceiling (hi lo : DataWord) (more : List DataWord) (cfg : Settings) :
    storedConfig .ceiling (values (hi :: lo :: more)) cfg =
      { cfg with ceiling := min 2147483647 (hi.value.toNat * 65536 + lo.value.toNat) } := by
  simp only [storedConfig, values, List.map_cons, value32]

theorem storedConfig_riskEntry (c : Fin 8) (hi lo w : DataWord) (more : List DataWord) (cfg : Settings) :
    storedConfig (.riskEntry c) (values (hi :: lo :: w :: more)) cfg =
      { cfg with
        risk := cfg.risk.set c ⟨min 99999999 (hi.value.toNat * 65536 + lo.value.toNat), w.value.toNat / 256 % 32⟩ } := by
  simp only [storedConfig, values, List.map_cons, value32]

/-- Settles O45: each item's clamp, and the share counter's bound for the one item that has one. -/
theorem configurationIsStoredInRange : Obligations.ConfigurationIsStoredInRange := by
  intro item index hdr words s s' happ need word
  have hneed : need = configWords item := by cases item <;> rfl
  refine ⟨fun hshort => exec_control_short happ rfl (hneed ▸ hshort), fun henough => ?stored⟩
  case stored =>
    obtain ⟨-, -, -, -, -, hcfg, -⟩ := happ.fields
    have hengine : s'.engine = s.engine := happ.engine_eq
    refine exec_control_enough happ rfl (hneed ▸ henough) ?_ rfl
    rw [configEffect_eq, hcfg, hengine]
    cases item with
    | ceiling =>
      obtain ⟨hi, lo, more, rfl⟩ := exists_words_two henough
      rw [storedConfig_ceiling, if_neg nofun, show word 0 = hi.value.toNat from rfl,
        show word 1 = lo.value.toNat from rfl]
    | riskEntry c =>
      obtain ⟨hi, lo, w, more, rfl⟩ := exists_words_three henough
      rw [storedConfig_riskEntry, if_neg nofun, show word 0 = hi.value.toNat from rfl,
        show word 1 = lo.value.toNat from rfl, show word 2 = w.value.toNat from rfl]
    | onlineTimeout | offerTimeout | attemptLimit | missThreshold | recoverThreshold | forgedLimit | rewrapShare
      | holdLimit =>
      obtain ⟨w, more, rfl⟩ := List.exists_cons_of_length_pos henough
      rfl

end Sys2Proof.Machine
end

section
/-! PROOFS. What a frozen request keeps to, what the two lane reads answer, and which take the arbiter chooses. -/

namespace Sys2Proof.Machine

section
variable {buf : Vector Byte 128} {written : Vector Bool 128} {policy : Vector PolicyEntry 15} {link : LinkState}
  {generation : Nat}

/-- What a frozen request tells of checks 3 to 7: its size bound, its amount, its mode and its fallback flag. -/
theorem freezeFields_ok {kind : TxKind} {mode : Mode} {cardClass : Fin 8} {fields : List Field} {r : WrapRequest}
    (h : freezeFields buf policy link generation kind mode cardClass fields = .ok r) :
    (∃ n, n ≤ 208 ∧ r.slots = slotCount (32 + n + 16)) ∧ r.amount = headAmount buf ∧
      amountOk r.kind r.amount = true ∧ r.generation = generation ∧
      frozenMode link mode (headFallback buf) = some r.mode ∧ r.fallback = frozenFallback r.kind (headFallback buf) := by
  simp only [freezeFields] at h
  split at h
  · cases h
  next hsize =>
  split at h
  · cases h
  next hamount =>
  split at h
  · cases h
  split at h
  · cases h
  split at h
  · cases h
  next m hmode =>
  cases h
  refine ⟨⟨_, Nat.le_of_not_lt hsize, ?_⟩, rfl, by simpa using hamount, rfl, hmode, rfl⟩
  rw [recordLength, Nat.add_assoc 32]

theorem recordChecks_ok {r : WrapRequest} (h : recordChecks buf written policy link generation = .ok r) :
    ∃ kind mode cardClass fields, headMode buf = some mode ∧
      freezeFields buf policy link generation kind mode cardClass fields = .ok r := by
  unfold recordChecks at h
  split at h
  · cases h
  split at h
  · cases h
  split at h
  · next kind mode c fields _ hmode _ _ _ => exact ⟨kind, mode, c, fields, hmode, h⟩
  · cases h

theorem slotCount_bounds {n : Nat} (h : n ≤ 208) : 2 ≤ slotCount (32 + n + 16) ∧ slotCount (32 + n + 16) ≤ 8 := by
  simp only [slotCount, ceilDiv, Config.slotBytes]
  omega

theorem amountOk_bounds {kind : TxKind} {amount : Nat} (h : amountOk kind amount = true) :
    amount ≤ 99999999 ∧ (kind = .sale → 1 ≤ amount) := by
  cases kind with
  | sale =>
    obtain ⟨hlow, hhigh⟩ := of_decide_eq_true h
    exact ⟨hhigh, fun _ => hlow⟩
  | refund | reversal => exact ⟨of_decide_eq_true h, nofun⟩

/-- The mode is the head's unless OUTAGE converts it, which it does only with the head's fallback flag (R33). -/
theorem frozenMode_eq_some {mode m : Mode} {fallback : Bool} (h : frozenMode link mode fallback = some m) :
    (m = .online ↔ mode = .online ∧ link ≠ .outage) ∧ (link = .outage → mode = .online → fallback = true) := by
  cases mode with
  | offline => cases h; simp
  | online =>
    cases link with
    | outage => cases fallback <;> cases h; simp
    | contact | doubt => cases h; simp

end

/-- Settles O12, from the checks that a frozen request has passed. -/
theorem frozenRequestStaysInBounds : Obligations.FrozenRequestStaysInBounds := by
  intro buf written policy link generation r hok
  obtain ⟨kind, mode, cardClass, fields, hhead, hfreeze⟩ := recordChecks_ok hok
  obtain ⟨⟨n, hn, hslots⟩, -, hamount, hgen, hmode, hfallback⟩ := freezeFields_ok hfreeze
  obtain ⟨hlow, hhigh⟩ := slotCount_bounds hn
  obtain ⟨hmax, hsale⟩ := amountOk_bounds hamount
  obtain ⟨honline, houtage⟩ := frozenMode_eq_some hmode
  refine ⟨hslots ▸ hlow, hslots ▸ hhigh, hmax, hsale, hgen, ?_, fun hl hm => houtage hl ?_, ?_⟩
  · rw [honline, hhead, Option.some_inj]
  · rwa [hhead, Option.some_inj] at hm
  · rw [hfallback, frozenFallback, Bool.and_eq_true, decide_eq_true_eq]

/-! ### The lane reads -/

/-- A 16-bit quantity's two bytes, joined, are the quantity (12.1). -/
theorem wordOf_ofNat (n : Nat) : wordOf (BitVec.ofNat 8 (n / 256)) (BitVec.ofNat 8 n) = BitVec.ofNat 16 n := by
  apply BitVec.eq_of_toNat_eq
  simp only [wordOf, BitVec.toNat_append, BitVec.toNat_ofNat]
  rw [← Nat.shiftLeft_add_eq_or_of_lt (by omega), Nat.shiftLeft_eq]
  omega

theorem wordsOf_laneCmdBytes (l : Lane) : wordsOf (laneCmdBytes l) =
    [BitVec.ofNat 8 l.mode.code ++ BitVec.ofNat 8 l.result.code, BitVec.ofNat 16 (l.result.number / 65536),
      BitVec.ofNat 16 l.result.number, BitVec.ofNat 8 l.result.reason ++ 0#8] := by
  simp only [laneCmdBytes, beBytes, List.nil_append, List.cons_append, wordsOf]
  rw [wordOf_ofNat l.result.number, show l.result.number / 256 / 256 / 256 = l.result.number / 65536 / 256 by omega,
    show l.result.number / 256 / 256 = l.result.number / 65536 by omega, wordOf_ofNat]
  rfl

theorem State.readLaneRsp_of_not_answered {s : State} {lane : Fin 16} (hdr : Header)
    (h : ∀ r, s.lanes[lane].mode ≠ .answered r) : s.readLaneRsp lane hdr = s.answerWith .lp .empty hdr [] := by
  unfold State.readLaneRsp
  split
  · next r hr => exact absurd hr (h r)
  · rfl

/-- Settles O16: an open port answers at once, and each read's change of the lane is in its answer's own state. -/
theorem laneReadsReportAndRelease : Obligations.LaneReadsReportAndRelease := by
  refine ⟨fun lane hdr s hopen => ?cmd, fun lane hdr s hopen => ?rsp⟩
  case cmd =>
    intro l
    rw [exec_of_readOf rfl, State.portRead_of_open hopen, ← wordsOf_laneCmdBytes]
    rfl
  case rsp =>
    rw [exec_of_readOf rfl, State.portRead_of_open hopen]
    have hread : s.answerRead .lp ⟨.laneRsp lane, laneIndex lane, hdr⟩ s.cfg.holdLimit = s.readLaneRsp lane hdr := rfl
    rw [hread]
    refine ⟨fun r hr => ?_, fun hnone => ?_⟩
    · rw [State.readLaneRsp, hr]
      rfl
    · rw [State.readLaneRsp_of_not_answered hdr hnone]
      rfl

/-! ### The arbiter -/

theorem State.due_of_serving {s : State} (h : s.engine.job ≠ none) : s.due = none := by
  rw [State.due, if_pos (Option.isSome_iff_ne_none.mpr h)]

theorem State.due_of_idle {s : State} (h : s.engine.job = none) : s.due = s.choose := by
  rw [State.due, h]
  rfl

theorem State.choose_of_queue {s : State} (h : s.intake.queue ≠ []) : s.choose = some .opening := by
  rw [State.choose, if_pos]
  simpa using h

theorem State.choose_of_choiceA {s : State} {n : Nat} (hq : s.intake.queue = []) (ha : s.choiceA = some n) :
    s.choose = some (.wrapA (laneOf n)) := by
  simp [State.choose, hq, ha]

theorem State.choose_of_no_choiceA {s : State} (hq : s.intake.queue = []) (ha : s.choiceA = none) : s.choose =
    if s.rewrapEligible && (decide (s.engine.share = s.cfg.rewrapShare) || s.choiceB.isNone) then some .rewrap
    else s.choiceB.map s.choiceAtB := by
  simp [State.choose, hq, ha]

theorem State.choiceA_eq_none {s : State} (h : ∀ l : Fin 16, s.lanes[l].pendingA = false) : s.choiceA = none :=
  firstFrom_eq_none fun _ _ => h _

theorem State.choiceB_eq_none {s : State} (h : ∀ pos : Nat, pos < 17 → s.pendingB pos = false) : s.choiceB = none :=
  firstFrom_eq_none fun _ _ => h _ (Nat.mod_lt _ (by decide))

theorem State.rewrapEligible_iff (s : State) :
    s.rewrapEligible = true ↔ s.keys.campaign ≠ none ∧ s.keys.usable = true := by
  rw [State.rewrapEligible, Bool.and_eq_true, Option.isSome_iff_ne_none]

/-- Settles O18: the cases of the arbiter in their order, each first pending position found from its pointer. -/
theorem arbiterChoosesFirstCase : Obligations.ArbiterChoosesFirstCase := by
  intro s noA noB rewrap
  refine ⟨State.due_of_serving, fun hidle hq => ?opening, fun hidle hq k hk hpend hnone => ?classA,
    fun hidle hq ha hrewrap hshare => ?rewrap, fun hidle hq ha hrewrap k hk hpend hnone => ?classB,
    fun hidle hq ha hrewrap hb => ?none⟩
  case opening => rw [State.due_of_idle hidle, State.choose_of_queue hq]
  case classA =>
    have hfirst : s.choiceA = some ((s.engine.aPtr + k) % 16) :=
      firstFrom_eq_some hk (by simpa using hpend) fun j hj => by simpa using hnone j hj
    rw [State.due_of_idle hidle, State.choose_of_choiceA hq hfirst, laneOf_mod]
  case rewrap =>
    rw [State.due_of_idle hidle, State.choose_of_no_choiceA hq (State.choiceA_eq_none ha), if_pos]
    rw [Bool.and_eq_true, State.rewrapEligible_iff, Bool.or_eq_true, decide_eq_true_eq]
    exact ⟨hrewrap, hshare.imp_right fun hb => by rw [State.choiceB_eq_none hb]; rfl⟩
  case classB =>
    have hfirst : s.choiceB = some ((s.engine.bPtr + k) % 17) := firstFrom_eq_some hk hpend hnone
    rw [State.due_of_idle hidle, State.choose_of_no_choiceA hq (State.choiceA_eq_none ha), hfirst, if_neg]
    · rfl
    · rw [Bool.and_eq_true, State.rewrapEligible_iff, Option.isNone_some, Bool.or_false, decide_eq_true_eq]
      exact hrewrap
  case none =>
    rw [State.due_of_idle hidle, State.choose_of_no_choiceA hq (State.choiceA_eq_none ha), State.choiceB_eq_none hb,
      if_neg]
    · rfl
    · rw [Bool.and_eq_true, State.rewrapEligible_iff]
      exact fun h => hrewrap h.1

end Sys2Proof.Machine
end

section
/-! PROOFS. The takes: what a claim makes of the store and the key table, and the four takes that use the ACTIVE key. -/

namespace Sys2Proof.Machine

/-! ### The key table after a counted use -/

theorem KeyTable.turned_active (k : KeyTable) : k.turned.find .active =
    (k.find .next).map fun v => { v with role := .active, uses := 0, wear := false } := by
  simp only [KeyTable.find, KeyTable.turned, Vector.toList_map]
  generalize k.slots.toList = l
  induction l with
  | nil => rfl
  | cons o os ih =>
    rcases o with _ | ⟨r, _, _, _, _, _⟩
    · exact ih
    · cases r
      · rfl
      · exact ih
      · exact ih

theorem slots_map (slots : Vector (Option WrapKey) 3) (f : Option WrapKey → Option WrapKey) (i : Fin 3) :
    (slots.map f)[i] = f slots[i] := Vector.getElem_map ..

theorem KeyTable.counted_active {k : KeyTable} {w : WrapKey} (h : k.active = some w) : (k.counted w).active =
    some { w with
      uses := w.uses + 1, wear := w.wear || (decide (k.useLimit - k.useLimit / 16 ≤ w.uses + 1) && !w.wear) } := by
  have hfind := k.counted_find w .active
  rw [if_pos rfl, show k.find .active = some w from h] at hfind
  exact hfind

theorem KeyTable.counted_slot {k : KeyTable} {w : WrapKey} {i : Fin 3} (h : k.slots[i] = some w)
    (hrole : w.role = .active) : (k.counted w).slots[i] = some { w with
      uses := w.uses + 1, wear := w.wear || (decide (k.useLimit - k.useLimit / 16 ≤ w.uses + 1) && !w.wear) } := by
  simp only [KeyTable.counted, slots_map, h, Option.map_some, hrole, if_true]

theorem KeyTable.turned_slot {k : KeyTable} {w : WrapKey} {i : Fin 3} (h : k.slots[i] = some w)
    (hrole : w.role = .active) : k.turned.slots[i] = some { w with role := .retiring } := by
  simp only [KeyTable.turned, slots_map, h, Option.map_some, hrole]

/-- The slot of the ACTIVE key holds that key with one more use, whatever its spending makes of the roles: only an erase
could empty it, and neither a custody entry of the key nor a RETIRING key allows one (R165). -/
theorem KeyTable.AfterUse.usedOnce {k k' : KeyTable} {w : WrapKey} {d : List Entry} (h : k.AfterUse k' w d)
    (hactive : k.active = some w) (hkept : 0 < custodyCount w.epoch d ∨ k.find .retiring ≠ none) :
    ∃ i : Fin 3, k.UsedOnce k' i w := by
  obtain ⟨i, hi, hrole⟩ := KeyTable.find_eq_some hactive
  have hslot := KeyTable.counted_slot hi hrole
  refine ⟨i, hi, ?_⟩
  obtain ⟨hplain, hspent⟩ := h
  by_cases huse : w.uses + 1 < k.useLimit ∨ k.find .next = none
  · rw [hplain huse]
    exact ⟨_, hslot, rfl, rfl, rfl⟩
  · rw [not_or] at huse
    obtain ⟨hwait, hroll⟩ := hspent (Nat.le_of_not_lt huse.1) huse.2
    by_cases hret : k.find .retiring = none
    · obtain ⟨-, hturned⟩ := hroll hret
      have hcustody : 0 < custodyCount w.epoch d := hkept.resolve_right (not_not_intro hret)
      rw [(hturned _ (KeyTable.counted_active hactive)).2 hcustody]
      exact ⟨_, KeyTable.turned_slot hslot hrole, rfl, rfl, rfl⟩
    · rw [hwait hret]
      exact ⟨_, hslot, rfl, rfl, rfl⟩

/-! ### The claim of an entry -/

/-- The state with an entry allocated, its charge on the meter and the high marks evaluated, before the key's use is
counted (R84, R89, R119). -/
def State.allocated (s : State) (e : Entry) : State :=
  let high := s.store.armed && highReached (s.store.allocate e) s.cfg
  let bit := if high then Event.storeHigh.bit else 0
  { s with
    store := { s.store.allocate e with armed := s.store.armed && !high }
    meter := s.meter + e.charge
    lp := { s.lp with events := s.lp.events ||| bit }
    up := { s.up with events := s.up.events ||| bit } }

theorem State.claim_eq (s : State) (e : Entry) : s.claim e = (s.allocated e).updKeys KeyTable.countUse := by
  unfold State.claim State.allocated
  rw [State.evalHigh_eq]
  have harmed : (s.store.allocate e).armed = s.store.armed := rfl
  have hhigh : highReached (s.store.allocate e) s.cfg = highReached (s.store.allocate e) s.cfg := rfl
  cases hyes : s.store.armed && highReached (s.store.allocate e) s.cfg with
  | true =>
    rw [if_pos (by simpa [State.updStore, State.setMeter, State.updKeys, harmed] using hyes)]
    simp [State.updStore, State.setMeter, State.updKeys, Port.signalled]
  | false =>
    rw [if_neg (by simpa [State.updStore, State.setMeter, State.updKeys, harmed] using hyes)]
    simp [State.updStore, State.setMeter, State.updKeys, ← harmed]

/-- From `s` to `t` an accepted take has claimed the entry `e` with the ACTIVE key `w`. -/
structure State.Claimed (s t : State) (e : Entry) (w : WrapKey) : Prop where
  frame : s.TakeFrame t
  meter : t.meter = s.meter + e.charge
  store : t.store = { s.store.allocate e with armed := t.store.armed }
  armed : t.store.armed = (s.store.armed && !highReached t.store s.cfg)
  custody : 0 < custodyCount w.epoch t.store.directory
  used : s.KeyUsed t w s.keys.campaign true
  once : ∃ i : Fin 3, s.keys.UsedOnce t.keys i w

theorem custodyCount_allocate {st : Store} {e : Entry} {epoch : Nat} (h : e.epoch = epoch) :
    0 < custodyCount epoch (st.allocate e).directory := by
  rw [custodyCount, List.countP_pos_iff]
  exact ⟨_, List.mem_append_right _ (List.mem_singleton_self _), by simp [h, EntryState.out]⟩

/-- A claim and the key table's action on it, with lanes, engine, batch and intake as the take sets them between. -/
theorem State.claimed_of_allocated {s y : State} {e : Entry} {w : WrapKey} (hactive : s.keys.active = some w)
    (hepoch : e.epoch = w.epoch)
    (hy : y = { s.allocated e with lanes := y.lanes, engine := y.engine, batch := y.batch, intake := y.intake }) :
    let t := (y.updKeys KeyTable.countUse).afterUse
    s.Claimed t e w ∧ t.lanes = y.lanes ∧ t.engine = y.engine ∧ t.batch = y.batch ∧ t.intake = y.intake := by
  intro t
  have hkeys : y.keys = s.keys := by rw [hy]; rfl
  have hcfg : y.cfg = s.cfg := by rw [hy]; rfl
  have hstore : y.store = (s.allocated e).store := by rw [hy]
  have hlp : y.lp.events = (s.allocated e).lp.events := by rw [hy]
  have hup : y.up.events = (s.allocated e).up.events := by rw [hy]
  obtain ⟨hafter, ht⟩ := State.afterUse_counted (s := y) (by rw [hkeys]; exact hactive)
  rw [hkeys, hstore] at hafter
  have htstore : t.store = (s.allocated e).store := by rw [← hstore, show t = _ from ht]
  have hcustody : 0 < custodyCount w.epoch t.store.directory := by
    rw [htstore]
    exact custodyCount_allocate hepoch
  have hhigh : (s.store.armed && highReached t.store s.cfg) = (s.store.armed && highReached (s.store.allocate e) s.cfg) := by
    rw [htstore]
    rfl
  have harmed : t.store.armed = (s.store.armed && !(s.store.armed && highReached t.store s.cfg)) := by
    rw [hhigh, htstore]
    rfl
  refine ⟨⟨?frame, ?meter, ?store, ?armed, hcustody, ⟨?after, harmed, ?lp, ?up⟩, ?once⟩, ?_, ?_, ?_, ?_⟩
  case frame =>
    unfold State.TakeFrame
    rw [show t = _ from ht, hy]
    rfl
  case meter => rw [show t = _ from ht, hy]; rfl
  case store => rw [htstore]; rfl
  case armed => rw [harmed]; cases s.store.armed <;> simp
  case after => rw [htstore]; exact hafter
  case lp =>
    rw [Bool.true_and, hhigh, show t = _ from ht, hlp, hkeys]
    rfl
  case up =>
    rw [Bool.true_and, hhigh, htstore, ← hstore, show t = _ from ht, hup, hkeys]
    rfl
  case once => exact hafter.usedOnce hactive (.inl (htstore ▸ hcustody))
  all_goals rw [show t = _ from ht]

/-! ### The WRAP take -/

theorem State.afterB_eq (s : State) (pos : Nat) : s.afterB pos = { s with engine := s.engineAfterB pos } := by
  unfold State.afterB State.engineAfterB State.updEngine Engine.afterB
  cases s.keys.campaign <;> rfl

theorem WrapRequest.needsDecision_iff (r : WrapRequest) :
    r.needsDecision = true ↔ r.kind = .sale ∧ r.mode = .offline := by
  simp [WrapRequest.needsDecision]

theorem wrapTake_accepts {s : State} {lane : Fin 16} {r : WrapRequest} {w : WrapKey} {charge : Nat}
    (hmode : s.lanes[lane].mode = .queued r) (hroom : s.KeyAndRoom w (r.slots + 16) 6)
    (hexposed : r.kind = .sale ∧ r.mode = .offline → s.ExposureAccepts r.cardClass r.amount charge)
    (hfree : ¬ (r.kind = .sale ∧ r.mode = .offline) → charge = 0) (moved : Engine) :
    wrapTake lane { s with engine := moved } = acceptWrap lane r w charge { s with engine := moved } := by
  have hchecks : State.wrapChecks { s with engine := moved } r = .ok charge := State.takeChecks_accepts hroom
    (fun h => hexposed (r.needsDecision_iff.mp h))
    (fun h => hfree fun hd => Bool.false_ne_true (h.symm.trans (r.needsDecision_iff.mpr hd)))
  obtain ⟨hactive, -⟩ := hroom
  simp only [wrapTake, hmode, hchecks, hactive]

theorem wrapTake_refuses {s : State} {lane : Fin 16} {r : WrapRequest} {x : RefuseReason}
    (hmode : s.lanes[lane].mode = .queued r)
    (hrefused : s.RefusedFor (r.slots + 16) 6 (r.kind = .sale ∧ r.mode = .offline) r.cardClass r.amount x)
    (moved : Engine) : wrapTake lane { s with engine := moved } = refuseWrap lane x { s with engine := moved } := by
  rw [← propext r.needsDecision_iff] at hrefused
  have hchecks : State.wrapChecks { s with engine := moved } r = .error x := State.takeChecks_refuses hrefused
  simp only [wrapTake, hmode, hchecks]

/-- The take of a WRAP that is due, with the pointers moved as its class has it (R64, R65). -/
theorem exec_takeWrap_of_due {s : State} {lane : Fin 16} (hrun : s.run = .running)
    (hdue : s.due = some (.wrapA lane) ∨ s.due = some (.wrapB lane)) :
    exec .takeWrap s = .next (wrapTake lane { s with
      engine := if s.due = some (.wrapA lane) then { s.engine with aPtr := (lane.val + 1) % 16 }
        else s.engineAfterB lane }) := by
  have hexec : exec .takeWrap s = execTakeWrap s := rfl
  rw [hexec, execTakeWrap, whenRunning_of_running hrun]
  rcases hdue with hA | hB
  · rw [hA, if_pos rfl]
    rfl
  · rw [hB, if_neg (by simp), ← State.afterB_eq]

/-- The take's own effects before the key's use is counted: the entry is allocated, the lane is WRAPPING with its buffer
cleared, and the job is in service of an engine whose pointers are moved (R68). -/
def wrapClaim (lane : Fin 16) (r : WrapRequest) (w : WrapKey) (charge : Nat) (moved : Engine) (s : State) : State :=
  let l := s.lanes[lane]
  { s.allocated (wrapEntry lane r l.seq s.batch.number w.epoch charge) with
    lanes := s.lanes.set lane { l.clearBuffer with mode := .wrapping, seq := succSeq l.seq }
    engine := { moved with job := some (.wrap ⟨lane, r, l.buffer, w.key, w.epoch, s.store.counter, l.seq⟩) } }

theorem acceptWrap_eq (lane : Fin 16) (r : WrapRequest) (w : WrapKey) (charge : Nat) (moved : Engine) (s : State) :
    acceptWrap lane r w charge { s with engine := moved } =
      ((wrapClaim lane r w charge moved s).updKeys KeyTable.countUse).afterUse := by
  simp only [acceptWrap, State.claim_eq]
  rfl

/-- Settles O19: an accepted take is a claim of its entry, with the lane and the job set in it. -/
theorem wrapTakeClaimsRecord : Obligations.WrapTakeClaimsRecord := by
  intro s lane r w charge hrun hdue hmode hroom hexposed hfree l job
  rw [exec_takeWrap_of_due hrun hdue, wrapTake_accepts hmode hroom hexposed hfree, acceptWrap_eq]
  obtain ⟨hclaim, hlanes, hengine, hbatch, hintake⟩ := State.claimed_of_allocated (s := s)
    (y := wrapClaim lane r w charge _ s) (e := wrapEntry lane r l.seq s.batch.number w.epoch charge) hroom.1 rfl rfl
  refine ⟨_, rfl, hclaim.frame, hbatch, hintake, hclaim.meter, hlanes, hclaim.store, hclaim.armed,
    fun hA => hengine.trans ?_, fun hB => hengine.trans ?_, hclaim.used, hclaim.once⟩
  · rw [if_pos hA]
    rfl
  · rw [if_neg (by simp [hB])]
    rfl

theorem State.laneOutcome_eq (s : State) (lane : Fin 16) (f : Lane → Lane) : s.laneOutcome lane f =
    { s with lanes := s.lanes.set lane { f s.lanes[lane] with attention := true }, lp := s.lp.signalled .lane } := rfl

theorem State.noteStoreFull_eq (s : State) (x : RefuseReason) : s.noteStoreFull x =
    { s with up := if x = .storeFull then s.up.signalled .storeFull else s.up } := by
  unfold State.noteStoreFull
  split <;> rfl

/-- Settles O20: the refusal changes the lane and its event, and STORE_FULL is posted for room alone. -/
theorem refusedWrapTakeConsumesNothing : Obligations.RefusedWrapTakeConsumesNothing := by
  intro s lane r x hrun hdue hmode hrefused
  rw [exec_takeWrap_of_due hrun hdue, wrapTake_refuses hmode hrefused, refuseWrap, State.laneOutcome_eq,
    State.noteStoreFull_eq]
  cases x <;> rfl

/-! ### The ADVISE take -/

theorem adviseTake_accepts {s : State} {lane : Fin 16} {a : AdviceRequest} {w : WrapKey} {charge : Nat}
    (hmode : s.lanes[lane].mode = .fallback a) (hroom : s.KeyAndRoom w 2 1)
    (hexposed : s.ExposureAccepts a.cardClass a.amount charge) (moved : Engine) :
    adviseTake lane { s with engine := moved } = acceptAdvise lane a w charge { s with engine := moved } := by
  have hchecks : State.adviseChecks { s with engine := moved } a = .ok charge := State.takeChecks_accepts hroom (fun _ => hexposed) nofun
  obtain ⟨hactive, -⟩ := hroom
  simp only [adviseTake, hmode, hchecks, hactive]

theorem adviseTake_refuses {s : State} {lane : Fin 16} {a : AdviceRequest} {x : RefuseReason}
    (hmode : s.lanes[lane].mode = .fallback a) (hrefused : s.RefusedFor 2 1 True a.cardClass a.amount x)
    (moved : Engine) : adviseTake lane { s with engine := moved } = refuseAdvise lane x { s with engine := moved } := by
  rw [← eq_self true] at hrefused
  have hchecks : State.adviseChecks { s with engine := moved } a = .error x := State.takeChecks_refuses hrefused
  simp only [adviseTake, hmode, hchecks]

theorem exec_takeAdvise_of_due {s : State} {lane : Fin 16} (hrun : s.run = .running)
    (hdue : s.due = some (.advise lane)) :
    exec .takeAdvise s = .next (adviseTake lane { s with engine := s.engineAfterB lane }) := by
  have hexec : exec .takeAdvise s = execTakeAdvise s := rfl
  rw [hexec, execTakeAdvise, whenRunning_of_running hrun, hdue, ← State.afterB_eq]

/-- The effects of an ADVISE take before the key's use is counted: the ADVICE entry is allocated and the lane stays in
FALLBACK with its request taken (R69). -/
def adviseClaim (lane : Fin 16) (a : AdviceRequest) (w : WrapKey) (charge : Nat) (moved : Engine) (s : State) : State :=
  let l := s.lanes[lane]
  { s.allocated (adviceEntry lane l.seq s.batch.number w.epoch charge) with
    lanes := s.lanes.set lane { l with mode := .fallback { a with taken := true }, seq := succSeq l.seq }
    engine := { moved with job := some (.advise ⟨lane, a.generation, a.origin, a.amount, a.cardClass, charge, w.key,
      w.epoch, s.store.counter, l.seq⟩) } }

theorem acceptAdvise_eq (lane : Fin 16) (a : AdviceRequest) (w : WrapKey) (charge : Nat) (moved : Engine) (s : State) :
    acceptAdvise lane a w charge { s with engine := moved } =
      ((adviseClaim lane a w charge moved s).updKeys KeyTable.countUse).afterUse := by
  simp only [acceptAdvise, State.claim_eq]
  rfl

/-- Settles O21: an accepted take is a claim of the ADVICE entry, a refused one ends the lane in IDLE. -/
theorem adviseTakeClaimsAdviceOrRefuses : Obligations.AdviseTakeClaimsAdviceOrRefuses := by
  intro s lane a hrun hdue hmode l
  rw [exec_takeAdvise_of_due hrun hdue]
  refine ⟨fun w charge hroom hexposed => ?accepted, fun x hrefused => ?refused⟩
  case accepted =>
    rw [adviseTake_accepts hmode hroom hexposed, acceptAdvise_eq]
    obtain ⟨hclaim, hlanes, hengine, hbatch, hintake⟩ := State.claimed_of_allocated (s := s)
      (y := adviseClaim lane a w charge _ s) (e := adviceEntry lane l.seq s.batch.number w.epoch charge) hroom.1 rfl rfl
    exact ⟨_, rfl, hclaim.frame, hbatch, hintake, hclaim.meter, hlanes, hclaim.store, hengine, hclaim.used, hclaim.once⟩
  case refused =>
    rw [adviseTake_refuses hmode hrefused, refuseAdvise, State.laneOutcome_eq, State.noteStoreFull_eq]

/-! ### The CLOSE take -/

/-- The effects of a CLOSE take before the key's use is counted: the SUMMARY entry is allocated, the snapshot is in the
job, and the batch is cut over (R71, R153). -/
def closeClaim (w : WrapKey) (moved : Engine) (s : State) : State :=
  { s.allocated (summaryEntry s.batch.shopSeq s.batch.number w.epoch) with
    engine := { moved with
      job := some (.close ⟨s.batch.snapshot s.store.counter, w.key, w.epoch, s.store.counter, s.batch.shopSeq⟩) }
    batch := s.batch.cutOver s.store.counter
    intake := { s.intake with forged := 0, late := 0 } }

theorem closeTake_eq (w : WrapKey) (moved : Engine) (s : State) :
    closeTake w { s with engine := moved } = ((closeClaim w moved s).updKeys KeyTable.countUse).afterUse := by
  simp only [closeTake, State.claim_eq]
  rfl

theorem exec_takeClose_of_due {s : State} {w : WrapKey} (hrun : s.run = .running) (hdue : s.due = some .close)
    (hactive : s.keys.active = some w) :
    exec .takeClose s = .next (closeTake w { s with engine := s.engineAfterB 16 }) := by
  have hexec : exec .takeClose s = execTakeClose s := rfl
  rw [hexec, execTakeClose, whenRunning_of_running hrun, hdue, hactive, ← State.afterB_eq]

/-- Settles O24: the take is a claim of the SUMMARY entry, with the batch cut over in it. -/
theorem closeTakeCutsTheBatchOver : Obligations.CloseTakeCutsTheBatchOver := by
  intro s w hrun hdue hactive n
  rw [exec_takeClose_of_due hrun hdue hactive, closeTake_eq]
  obtain ⟨hclaim, hlanes, hengine, hbatch, hintake⟩ := State.claimed_of_allocated (s := s)
    (y := closeClaim w _ s) (e := summaryEntry s.batch.shopSeq s.batch.number w.epoch) hactive rfl rfl
  exact ⟨_, rfl, hclaim.frame, hlanes, hclaim.meter, hintake, hbatch, hclaim.store, hengine, hclaim.used, hclaim.once⟩

/-! ### The REWRAP take -/

theorem rewrapPrior_of_prior {e : Entry} {epoch : Nat} {p : Prior} (hepoch : e.epoch = epoch) (hstate : e.state = p.state) :
    rewrapPrior e epoch = some p := by
  rw [rewrapPrior, if_neg (not_not_intro hepoch), hstate]
  cases p <;> rfl

theorem rewrapPrior_eq_none {e : Entry} {epoch : Nat} (h : e.epoch = epoch → e.state ≠ .held ∧ e.state ≠ .parked) :
    rewrapPrior e epoch = none := by
  unfold rewrapPrior
  split
  · rfl
  next hepoch =>
  obtain ⟨hheld, hparked⟩ := h (Decidable.not_not.mp hepoch)
  split
  · next hs => exact absurd hs hheld
  · next hs => exact absurd hs hparked
  · rfl

theorem exec_takeRewrap_of_due {s : State} {target : Nat} (hrun : s.run = .running) (hdue : s.due = some .rewrap)
    (hcampaign : s.keys.campaign = some target) : exec .takeRewrap s = .next (rewrapTake target s) := by
  have hexec : exec .takeRewrap s = execTakeRewrap s := rfl
  rw [hexec, execTakeRewrap, whenRunning_of_running hrun, hdue, hcampaign]

/-- The effects of a REWRAP take before the key's use is counted: the target REWRAPPING, its slots and both keys in the
job, and the campaign looking again (R70, R167). -/
def rewrapClaim (target : Nat) (e : Entry) (p : Prior) (old new : WrapKey) (s : State) : State :=
  let d := updEntry target (fun x => { x with state := .rewrapping p }) s.store.directory
  { s with
    store := { s.store with directory := d }
    keys := { s.keys with campaign := campaignTarget old.epoch d }
    engine := { s.engine with
      share := 0
      job := some (.rewrap ⟨target, Memory.readRun s.store.ring (32 * e.firstSlot) (32 * e.slots), old.key, new.key,
        new.epoch⟩) } }

theorem KeyTable.countUse_find_retiring (k : KeyTable) : k.countUse.find .retiring = k.find .retiring := by
  rw [KeyTable.countUse_eq]
  simp only [KeyTable.find, Vector.toList_map]
  generalize k.slots.toList = l
  induction l with
  | nil => rfl
  | cons o os ih =>
    rcases o with _ | ⟨r, _, _, _, _, _⟩
    · exact ih
    · cases r
      · exact ih
      · exact ih
      · rfl

/-- With the request withdrawn and a key RETIRING, the campaign's look posts that key's next target (R167). -/
theorem State.campaignLook_of_withdrawn {s : State} {old : WrapKey} (hold : s.keys.find .retiring = some old)
    (hnone : s.keys.campaign = none) :
    s.campaignLook = { s with keys := { s.keys with campaign := campaignTarget old.epoch s.store.directory } } := by
  rw [State.campaignLook_lookedOver, KeyTable.lookedOver, hnone, hold]

/-- The request out of the pending set and the share counter at 0, as each REWRAP take leaves them (R65, R70). -/
def State.withdrawn (s : State) : State :=
  { s with keys := { s.keys with campaign := none }, engine := { s.engine with share := 0 } }

theorem rewrapTake_starts {s : State} {target : Nat} {e : Entry} {p : Prior} {old new : WrapKey}
    (hfound : findEntry target s.store.directory = some e) (hold : s.keys.find .retiring = some old)
    (hnew : s.keys.active = some new) (hprior : rewrapPrior e old.epoch = some p) :
    rewrapTake target s = acceptRewrap e p old new s.withdrawn := by
  unfold rewrapTake
  dsimp only
  split
  · next e' old' new' he ho hn =>
    cases he.symm.trans hfound
    cases ho.symm.trans hold
    cases hn.symm.trans hnew
    rw [hprior]
    rfl
  · next hnone => exact absurd hnew (hnone e old new hfound hold)

theorem rewrapTake_drops {s : State} {target : Nat}
    (hother : ∀ e old, findEntry target s.store.directory = some e → s.keys.find .retiring = some old →
      rewrapPrior e old.epoch = none) : rewrapTake target s = s.withdrawn.campaignLook := by
  unfold rewrapTake
  dsimp only
  split
  · next e old new he ho hn =>
    rw [hother e old he ho]
    rfl
  · rfl

theorem acceptRewrap_eq {s : State} {target : Nat} {e : Entry} (p : Prior) {old : WrapKey} (new : WrapKey)
    (hnumber : e.number = target) (hold : s.keys.find .retiring = some old) :
    acceptRewrap e p old new s.withdrawn =
      ((rewrapClaim target e p old new s).updKeys KeyTable.countUse).afterUse := by
  subst hnumber
  unfold acceptRewrap
  dsimp only
  rw [State.campaignLook_of_withdrawn (old := old) ((KeyTable.countUse_find_retiring _).trans hold) rfl]
  rfl

/-- With a key RETIRING the spending of the ACTIVE key rolls nothing: the campaign request stays as it was (R164). -/
theorem KeyTable.AfterUse.campaign_eq {k k' : KeyTable} {w : WrapKey} {d : List Entry} (h : k.AfterUse k' w d)
    (hret : k.find .retiring ≠ none) : k'.campaign = k.campaign := by
  obtain ⟨hplain, hspent⟩ := h
  by_cases huse : w.uses + 1 < k.useLimit ∨ k.find .next = none
  · rw [hplain huse]
    rfl
  · rw [not_or] at huse
    rw [(hspent (Nat.le_of_not_lt huse.1) huse.2).1 hret]
    rfl

/-- From `s` to `t` an accepted REWRAP take has used the ACTIVE key `new`, with the changes of `rewrapClaim`. -/
theorem rewrapClaim_used {s : State} {target : Nat} {e : Entry} {p : Prior} {old new : WrapKey}
    (hnew : s.keys.active = some new) :
    let y := rewrapClaim target e p old new s
    let t := (y.updKeys KeyTable.countUse).afterUse
    s.TakeFrame t ∧ t.lanes = s.lanes ∧ t.meter = s.meter ∧ t.batch = s.batch ∧ t.intake = s.intake ∧
      t.store = y.store ∧ t.engine = y.engine ∧ y.keys.AfterUse t.keys new t.store.directory ∧
      s.KeyUsed t new y.keys.campaign false := by
  intro y t
  obtain ⟨hafter, ht⟩ := State.afterUse_counted (s := y) (w := new) hnew
  have hstore : t.store = y.store := by rw [show t = _ from ht]
  rw [← hstore] at hafter
  have harmed : y.store.armed = s.store.armed := rfl
  refine ⟨?frame, (congrArg State.lanes ht :), (congrArg State.meter ht :), (congrArg State.batch ht :),
    (congrArg State.intake ht :), hstore, (congrArg State.engine ht :), hafter, hafter, ?armed, ?lp, ?up⟩
  case frame =>
    unfold State.TakeFrame
    rw [show t = _ from ht]
    rfl
  case armed => rw [Bool.false_and, Bool.false_and, hstore, harmed, Bool.not_false, Bool.and_true]
  case lp =>
    simp only [Bool.false_and, Bool.false_eq_true, if_false, BitVec.ofNat_eq_ofNat, BitVec.or_zero]
    rw [show t = _ from ht]
    rfl
  case up =>
    simp only [Bool.false_and, Bool.false_eq_true, if_false, BitVec.ofNat_eq_ofNat, BitVec.or_zero]
    rw [hstore, show t = _ from ht]
    rfl

/-- Settles O23: an accepted take is the target's change with the key's use counted, a dropped one the campaign's look. -/
theorem rewrapTakeStartsOrDrops : Obligations.RewrapTakeStartsOrDrops := by
  intro s target hrun hdue hcampaign
  rw [exec_takeRewrap_of_due hrun hdue hcampaign]
  refine ⟨fun e p old new hfound hstate hold hepoch hnew => ?started, fun hother => ?dropped⟩
  case started =>
    rw [rewrapTake_starts hfound hold hnew (rewrapPrior_of_prior hepoch hstate),
      acceptRewrap_eq p new (findEntry_number hfound) hold]
    obtain ⟨hframe, hlanes, hmeter, hbatch, hintake, hstore, hengine, hafter, hused⟩ :=
      rewrapClaim_used (target := target) (e := e) (p := p) (old := old) hnew
    have hret : s.keys.find .retiring ≠ none := by simp [hold]
    have hcamp := hafter.campaign_eq hret
    have hdirectory : (rewrapClaim target e p old new s).keys.campaign = campaignTarget old.epoch
        (((rewrapClaim target e p old new s).updKeys KeyTable.countUse).afterUse).store.directory := by
      rw [hstore]
      rfl
    rw [hdirectory] at hcamp hused
    exact ⟨_, rfl, hframe, hlanes, hmeter, hbatch, hintake, hstore, hengine, hcamp, hused,
      hafter.usedOnce hnew (.inr hret)⟩
  case dropped =>
    rw [rewrapTake_drops fun e old he ho => rewrapPrior_eq_none (hother e old he ho), State.campaignLook_lookedOver]
    have hfind : s.withdrawn.keys.find .retiring = s.keys.find .retiring := rfl
    have hnone : s.withdrawn.keys.campaign = none := rfl
    rw [KeyTable.lookedOver, hfind, hnone]
    cases s.keys.find .retiring <;> rfl

/-! ### Any take that uses the key -/

/-- From `s` to `t` a take has used the ACTIVE key `w`, and a roll made with that use erases nothing: a custody entry
carries the key's epoch, or a key was RETIRING before. -/
def State.UsedKey (s t : State) (w : WrapKey) : Prop :=
  ∃ campaign allocates, s.KeyUsed t w campaign allocates ∧
    (0 < custodyCount w.epoch t.store.directory ∨ s.keys.find .retiring ≠ none)

section
variable {s : State} {w : WrapKey}

theorem State.Claimed.usedKey {t : State} {e : Entry} (h : s.Claimed t e w) : s.UsedKey t w :=
  ⟨_, _, h.used, .inl h.custody⟩

theorem wrapTake_usedKey {lane : Fin 16} {moved : Engine} (hactive : s.keys.active = some w) (hidle : moved.job = none)
    (hjob : (wrapTake lane { s with engine := moved }).engine.job ≠ none) :
    s.UsedKey (wrapTake lane { s with engine := moved }) w := by
  revert hjob
  unfold wrapTake
  split
  · next r hr =>
    split
    · next x _ _ =>
      intro hjob
      rw [refuseWrap, State.laneOutcome_eq, State.noteStoreFull_eq] at hjob
      exact absurd hidle hjob
    · next charge w' _ hw' =>
      intro _
      cases hw'.symm.trans hactive
      rw [acceptWrap_eq]
      exact (State.claimed_of_allocated hactive rfl rfl).1.usedKey
    · next hw' => cases hw'.symm.trans hactive
  · exact fun hjob => absurd hidle hjob

theorem adviseTake_usedKey {lane : Fin 16} {moved : Engine} (hactive : s.keys.active = some w)
    (hidle : moved.job = none) (hjob : (adviseTake lane { s with engine := moved }).engine.job ≠ none) :
    s.UsedKey (adviseTake lane { s with engine := moved }) w := by
  revert hjob
  unfold adviseTake
  split
  · next a ha =>
    split
    · next x _ _ =>
      intro hjob
      rw [refuseAdvise, State.laneOutcome_eq, State.noteStoreFull_eq] at hjob
      exact absurd hidle hjob
    · next charge w' _ hw' =>
      intro _
      cases hw'.symm.trans hactive
      rw [acceptAdvise_eq]
      exact (State.claimed_of_allocated hactive rfl rfl).1.usedKey
    · next hw' => cases hw'.symm.trans hactive
  · exact fun hjob => absurd hidle hjob

theorem rewrapTake_usedKey {target : Nat} (hactive : s.keys.active = some w) (hidle : s.engine.job = none)
    (hjob : (rewrapTake target s).engine.job ≠ none) : s.UsedKey (rewrapTake target s) w := by
  by_cases hstart : ∃ e old p, findEntry target s.store.directory = some e ∧ s.keys.find .retiring = some old ∧
      rewrapPrior e old.epoch = some p
  · obtain ⟨e, old, p, hfound, hold, hprior⟩ := hstart
    rw [rewrapTake_starts hfound hold hactive hprior, acceptRewrap_eq p w (findEntry_number hfound) hold]
    obtain ⟨-, -, -, -, -, -, -, -, hused⟩ :=
      rewrapClaim_used (target := target) (e := e) (p := p) (old := old) hactive
    exact ⟨_, _, hused, .inr (by simp [hold])⟩
  · refine absurd hidle ?_
    rw [rewrapTake_drops fun e old he ho => ?_, State.campaignLook_engine] at hjob
    · exact hjob
    · exact Option.eq_none_iff_forall_ne_some.mpr fun p hp => hstart ⟨e, old, p, he, ho, hp⟩

/-- Each of the four takes that put a job in service with the ACTIVE key uses it. -/
theorem usedKey_of_take {c : Instr} {t : State} (htake : c = .takeWrap ∨ c = .takeAdvise ∨ c = .takeRewrap ∨ c = .takeClose)
    (hrun : s.run = .running) (hidle : s.engine.job = none) (hactive : s.keys.active = some w)
    (hexec : exec c s = .next t) (hjob : t.engine.job ≠ none) : s.UsedKey t w := by
  rcases htake with rfl | rfl | rfl | rfl
  · obtain rfl : whenRunning s _ = t := Host.Outcome.next.inj hexec
    rw [whenRunning_of_running hrun] at hjob ⊢
    revert hjob
    split
    · next lane _ => exact wrapTake_usedKey (moved := s.engine.afterA lane) hactive hidle
    · next lane _ => rw [State.afterB_eq]; exact wrapTake_usedKey hactive hidle
    · exact fun hjob => absurd hidle hjob
  · obtain rfl : whenRunning s _ = t := Host.Outcome.next.inj hexec
    rw [whenRunning_of_running hrun] at hjob ⊢
    revert hjob
    split
    · next lane _ => rw [State.afterB_eq]; exact adviseTake_usedKey hactive hidle
    · exact fun hjob => absurd hidle hjob
  · obtain rfl : whenRunning s _ = t := Host.Outcome.next.inj hexec
    rw [whenRunning_of_running hrun] at hjob ⊢
    revert hjob
    split
    · exact rewrapTake_usedKey hactive hidle
    · exact fun hjob => absurd hidle hjob
  · obtain rfl : whenRunning s _ = t := Host.Outcome.next.inj hexec
    rw [whenRunning_of_running hrun] at hjob ⊢
    revert hjob
    split
    · next w' _ hw' =>
      intro _
      cases hw'.symm.trans hactive
      rw [State.afterB_eq, closeTake_eq]
      exact (State.claimed_of_allocated hactive rfl rfl).1.usedKey
    · exact fun hjob => absurd hidle hjob

end

theorem events_or_and (events more m : BitVec 32) : (events ||| more) &&& m = (events &&& m) ||| (more &&& m) := by
  ext i
  simp only [BitVec.getElem_and, BitVec.getElem_or, Bool.and_or_distrib_right]

theorem events_keep {events more m : BitVec 32} (h : events &&& m ≠ 0) : (events ||| more) &&& m ≠ 0 := by
  rw [events_or_and]
  exact fun hzero => h (BitVec.or_eq_zero_iff.mp hzero).1

theorem events_gain {events bit : BitVec 32} (h : bit ≠ 0) : (events ||| bit) &&& bit ≠ 0 := by
  rw [events_or_and, BitVec.and_self]
  exact fun hzero => h (BitVec.or_eq_zero_iff.mp hzero).2

/-- A spending use leaves the ACTIVE key worn, whether the wear flag was set before or is set now (R163). -/
theorem worn_of_spent {limit uses : Nat} (wear : Bool) (h : uses + 1 = limit) :
    (wear || (decide (limit - limit / 16 ≤ uses + 1) && !wear)) = true := by
  rw [decide_eq_true (by omega)]
  cases wear <;> rfl

theorem KeyTable.counted_find_other {k : KeyTable} (w : WrapKey) {r : Role} (h : r ≠ .active) :
    (k.counted w).find r = k.find r := by
  rw [KeyTable.counted_find, if_neg h]

/-- Settles O22, from the use of the key that every such take makes: the three cases of the spending use. -/
theorem spendingTakeRollsOrReports : Obligations.SpendingTakeRollsOrReports := by
  intro c s t w htake hrun hidle hactive hlimit hexec hjob
  obtain ⟨campaign, allocates, ⟨⟨hplain, hspent⟩, -, hlp, hup⟩, hkept⟩ :=
    usedKey_of_take htake hrun hidle hactive hexec hjob
  have hworn := worn_of_spent w.wear hlimit
  have hle : s.keys.useLimit ≤ w.uses + 1 := Nat.le_of_eq hlimit.symm
  refine ⟨fun hwear => ?wear, fun v hnext hret => ?roll, fun hnext hret => ?wait, fun hnext => ?alone⟩
  case wear =>
    rw [hwear, Bool.false_or] at hworn
    rw [hup, hwear, hworn]
    exact events_keep (events_keep (events_gain (by decide)))
  case roll =>
    have hcustody : 0 < custodyCount w.epoch t.store.directory := hkept.resolve_right (not_not_intro hret)
    let k : KeyTable := { s.keys with campaign := campaign }
    have hcounted := KeyTable.counted_active (k := k) hactive
    have hnext' : (k.counted w).find .next = some v := (KeyTable.counted_find_other w (r := .next) nofun).trans hnext
    have hret' : (k.counted w).find .retiring = none := (KeyTable.counted_find_other w (r := .retiring) nofun).trans hret
    obtain ⟨-, hturned⟩ := (hspent hle fun hnone => nomatch hnext.symm.trans hnone).2 hret
    rw [(hturned _ hcounted).2 hcustody]
    refine ⟨?_, ?_, rfl, rfl⟩
    · exact (KeyTable.turned_active _).trans (congrArg (Option.map _) hnext')
    · rw [show k.useLimit = s.keys.useLimit from rfl, hworn] at hcounted
      exact (KeyTable.turned_retiring hret').trans (congrArg (Option.map _) hcounted)
  case wait =>
    rw [(hspent hle hnext).1 hret]
  case alone =>
    rw [hnext, decide_eq_true hle] at hup hlp
    refine ⟨?_, ?_, ?_⟩
    · rw [hup]
      exact events_keep (events_gain (by decide))
    · rw [hlp]
      exact events_gain (by decide)
    · rw [hplain (.inr hnext)]
      exact (KeyTable.counted_active (k := { s.keys with campaign := campaign }) hactive).trans (by rw [hworn])

end Sys2Proof.Machine
end

section
/-! PROOFS. Completions of WRAP, ADVISE and CLOSE: the commit of a record, its lane, and the campaign's look. -/

namespace Sys2Proof.Machine

/-! ### The commit of a record -/

theorem length_padTo (n : Nat) (bs : List Byte) : (padTo n bs).length = n := by
  simp only [padTo, List.length_append, List.length_take, List.length_replicate]
  omega

theorem length_sealRecord (k : Key) (header clear plain : List Byte) (slots : Nat) :
    (sealRecord k header clear plain slots).length = 32 * slots := length_padTo ..

theorem Store.commit_of_found {st : Store} {n : Nat} {e : Entry} (h : findEntry n st.directory = some e)
    (bytes : List Byte) (batch length : Nat) (awaiting : Bool) : st.commit n bytes batch length awaiting =
      { st with
        directory := Machine.updEntry n (fun x => x.complete batch length awaiting) st.directory
        ring := Memory.writeRun st.ring (32 * e.firstSlot) bytes } := by
  unfold Store.commit
  split
  · next e' he' =>
    cases he'.symm.trans h
    rfl
  · next hnone => cases hnone.symm.trans h

/-- A record's bytes are in its slots after the commit, and every other byte of the ring is as it was (R81). -/
theorem Memory.holds_sealed {m : List Host.Cell} (hwf : Memory.wf m = true) (a : Nat) {bytes : List Byte} {slots : Nat}
    (hlen : bytes.length = 32 * slots) (hslots : slots ≤ 4096) : Memory.Holds m (Memory.writeRun m a bytes) a bytes :=
  Memory.writeRun_holds hwf a bytes (by rw [hlen, show Config.ringBytes = 131072 from rfl]; omega)

theorem State.clearOrphan_eq (s : State) (lane : Fin 16) :
    s.clearOrphan lane = { s with lanes := s.lanes.set lane { s.lanes[lane] with orphan := false } } := rfl

/-! ### The settlement totals -/

theorem saturatingAdd_eq (bound value add : Nat) :
    saturatingAdd bound value add = (min bound (value + add), decide (bound < value + add)) := by
  unfold saturatingAdd
  split
  · next h => rw [decide_eq_true h, Nat.min_eq_left (Nat.le_of_lt h)]
  · next h => rw [decide_eq_false h, Nat.min_eq_right (Nat.le_of_not_lt h)]

/-- A sale counts on the debit side, a refund or reversal on the credit side, each clamped with its flag (R52, R53). -/
theorem ClassTotals.add_eq (c : ClassTotals) (kind : TxKind) (amount : Nat) : c.add kind amount =
    if kind = .sale then
      { c with
        debitCount := min 16777215 (c.debitCount + 1)
        debitTotal := min 1099511627775 (c.debitTotal + amount)
        saturated := c.saturated || decide (16777215 < c.debitCount + 1) ||
          decide (1099511627775 < c.debitTotal + amount) }
    else
      { c with
        creditCount := min 16777215 (c.creditCount + 1)
        creditTotal := min 1099511627775 (c.creditTotal + amount)
        saturated := c.saturated || decide (16777215 < c.creditCount + 1) ||
          decide (1099511627775 < c.creditTotal + amount) } := by
  cases kind with
  | sale => simp only [ClassTotals.add, saturatingAdd_eq, Config.maxCount, Config.maxTotal, if_true]
  | refund | reversal =>
    simp only [ClassTotals.add, saturatingAdd_eq, Config.maxCount, Config.maxTotal, reduceCtorEq, if_false]

/-! ### WRAP -/

theorem exec_wrapCompletion_of_job {s : State} {j : WrapJob} (hrun : s.run = .running)
    (hjob : s.engine.job = some (.wrap j)) : exec .wrapCompletion s = .next (completeWrap j s) := by
  have hexec : exec .wrapCompletion s = execWrapCompletion s := rfl
  rw [hexec, execWrapCompletion, whenRunning_of_running hrun, hjob]

/-- What a WRAP completion makes of the state, `st` being the store with the record committed: the batch, the lane in its
own generation or as an orphan, the events, and the campaign's look. -/
theorem completeWrap_eq (j : WrapJob) (s : State) {own online : Bool} {st : Store}
    (hown : s.lanes[j.lane].owns j.request.generation = own) (honline : decide (j.request.mode = .online) = online)
    (hst : s.store.commit j.number (j.sealed s.keys.identity s.batch.number) s.batch.number j.recordLength
      (own && online) = st) : completeWrap j s = State.campaignLook { s with
      lanes := s.lanes.set j.lane
        (if own then { s.lanes[j.lane].wrapCompleted j s.cfg.onlineTimeout with attention := true }
          else { s.lanes[j.lane] with orphan := false })
      engine := { s.engine with job := none }
      store := st
      batch := s.batch.addRecord j.request.kind j.request.cardClass j.request.amount
      lp := if own then s.lp.signalled .lane else s.lp
      up := if online then (s.up.signalled .offerReady).signalled .urgentReady else s.up.signalled .offerReady } := by
  have hcommit : (s.updStore fun st => st.commit j.number (j.sealed s.keys.identity s.batch.number) s.batch.number
      j.recordLength (own && online)) = { s with store := st } := by rw [State.updStore, hst]
  simp only [completeWrap, hown, honline, hcommit]
  cases own <;> cases online <;> rfl

theorem Lane.wrapCompleted_online {j : WrapJob} (h : j.request.mode = .online) (l : Lane) (timeout : Nat) :
    l.wrapCompleted j timeout = { l with
      mode := .waitResponse ⟨j.number, j.laneSeq, j.request.fallback, j.request.amount, j.request.cardClass⟩ timeout
      result := .wrapped j.number } := by
  rw [Lane.wrapCompleted, h]

theorem Lane.wrapCompleted_offline {j : WrapJob} (h : j.request.mode ≠ .online) (l : Lane) (timeout : Nat) :
    l.wrapCompleted j timeout = { l with mode := .idle, result := .offlineAccepted j.number } := by
  unfold Lane.wrapCompleted
  split
  · next honline => exact absurd honline h
  · rfl

/-- Settles O26: the completion's state written out, with its own lane or an orphan's. -/
theorem wrapCompletionCommitsRecord : Obligations.WrapCompletionCommitsRecord := by
  intro s j e hrun hjob hfound hslots hwf l own online c
  rw [exec_wrapCompletion_of_job hrun hjob, completeWrap_eq j s (Lane.owns_iff ..) rfl (Store.commit_of_found hfound ..),
    State.campaignLook_lookedOver, ← Bool.decide_and, Batch.addRecord, ClassTotals.add_eq]
  refine ⟨_, rfl, rfl, rfl, ?ring, rfl, ?up, fun hown honline => ?online, fun hown hoffline => ?offline,
    fun hother => ?orphan, rfl⟩
  case ring => exact Memory.holds_sealed hwf _ (length_sealRecord ..) hslots
  case up => by_cases h : online <;> simp [h, online]
  case online =>
    have hmode := Lane.wrapCompleted_online (j := j) honline l s.cfg.onlineTimeout
    exact ⟨if_pos (decide_eq_true hown), by rw [if_pos (decide_eq_true hown), hmode]⟩
  case offline =>
    have hmode := Lane.wrapCompleted_offline (j := j) hoffline l s.cfg.onlineTimeout
    exact ⟨if_pos (decide_eq_true hown), by rw [if_pos (decide_eq_true hown), hmode]⟩
  case orphan =>
    have hno : ¬ decide own = true := by rwa [decide_eq_true_eq]
    exact ⟨if_neg hno, by rw [if_neg hno]⟩

/-! ### ADVISE and CLOSE -/

theorem exec_adviseCompletion_of_job {s : State} {j : AdviseJob} (hrun : s.run = .running)
    (hjob : s.engine.job = some (.advise j)) : exec .adviseCompletion s = .next (completeAdvise j s) := by
  have hexec : exec .adviseCompletion s = execAdviseCompletion s := rfl
  rw [hexec, execAdviseCompletion, whenRunning_of_running hrun, hjob]

theorem exec_closeCompletion_of_job {s : State} {j : CloseJob} (hrun : s.run = .running)
    (hjob : s.engine.job = some (.close j)) : exec .closeCompletion s = .next (completeClose j s) := by
  have hexec : exec .closeCompletion s = execCloseCompletion s := rfl
  rw [hexec, execCloseCompletion, whenRunning_of_running hrun, hjob]

theorem completeAdvise_eq (j : AdviseJob) (s : State) {own : Bool} {st : Store}
    (hown : s.lanes[j.lane].owns j.generation = own)
    (hst : s.store.commit j.number (j.sealed s.keys.identity s.batch.number) s.batch.number 64 false = st) :
    completeAdvise j s = State.campaignLook { s with
      lanes := s.lanes.set j.lane
        (if own then { s.lanes[j.lane].adviceCompleted j.number with attention := true }
          else { s.lanes[j.lane] with orphan := false })
      engine := { s.engine with job := none }
      store := st
      lp := if own then s.lp.signalled .lane else s.lp
      up := s.up.signalled .offerReady } := by
  have hcommit : (s.updStore fun st => st.commit j.number (j.sealed s.keys.identity s.batch.number) s.batch.number 64
      false) = { s with store := st } := by rw [State.updStore, hst]
  simp only [completeAdvise, hown, hcommit]
  cases own <;> rfl

theorem completeClose_eq (j : CloseJob) (s : State) {st : Store}
    (hst : s.store.commit j.number (j.sealed s.keys.identity) j.snapshot.number 208 false = st) :
    completeClose j s = State.campaignLook { s with
      engine := { s.engine with job := none }
      store := st
      up := (s.up.signalled .offerReady).signalled .batchClosed } := by
  have hcommit : (s.updStore fun st => st.commit j.number (j.sealed s.keys.identity) j.snapshot.number 208 false) =
      { s with store := st } := by rw [State.updStore, hst]
  simp only [completeClose, hcommit]
  rfl

/-- Settles O27: both completions written out, the one with its lane, the other with none. -/
theorem adviceAndSummaryCompletionsCommit : Obligations.AdviceAndSummaryCompletionsCommit := by
  refine ⟨fun s j e hrun hjob hfound hwf => ?advice, fun s j e hrun hjob hfound hwf => ?summary⟩
  case advice =>
    intro l own
    rw [exec_adviseCompletion_of_job hrun hjob,
      completeAdvise_eq j s (Lane.owns_iff ..) (Store.commit_of_found hfound ..), State.campaignLook_lookedOver]
    have hlen : (j.sealed s.keys.identity s.batch.number).length = 32 * 2 := length_sealRecord ..
    generalize j.sealed s.keys.identity s.batch.number = bytes at hlen ⊢
    refine ⟨_, rfl, rfl, rfl, ?ring, fun hown => ?own, fun hother => ?orphan, rfl⟩
    case ring => exact Memory.holds_sealed hwf _ hlen (by decide)
    case own => exact ⟨if_pos (decide_eq_true hown), by rw [if_pos (decide_eq_true hown)]; rfl⟩
    case orphan =>
      have hno : ¬ decide own = true := by rwa [decide_eq_true_eq]
      exact ⟨if_neg hno, by rw [if_neg hno]⟩
  case summary =>
    rw [exec_closeCompletion_of_job hrun hjob, completeClose_eq j s (Store.commit_of_found hfound ..),
      State.campaignLook_lookedOver]
    have hlen : (j.sealed s.keys.identity).length = 32 * 7 := length_sealRecord ..
    generalize j.sealed s.keys.identity = bytes at hlen ⊢
    exact ⟨_, rfl, rfl, rfl, Memory.holds_sealed hwf _ hlen (by decide), rfl⟩

end Sys2Proof.Machine
end

section
/-! PROOFS. The reads at the store: offers, spills and ring bytes. -/

namespace Sys2Proof.Machine

/-! ### Offers (R90 to R93) -/

theorem find?_split {d older younger : List Entry} {e : Entry} {test : Entry → Bool} (hd : d = older ++ e :: younger)
    (hnone : ∀ x ∈ older, test x = false) (he : test e = true) : d.find? test = some e :=
  List.find?_eq_some_iff_append.mpr ⟨he, older, younger, hd, fun x hx => by rw [hnone x hx]; rfl⟩

theorem find?_none {d : List Entry} {test : Entry → Bool} (h : ∀ x ∈ d, test x = false) : d.find? test = none :=
  List.find?_eq_none.mpr fun x hx => by rw [h x hx]; exact Bool.false_ne_true

theorem Entry.offerable_iff (e : Entry) : e.offerable = true ↔ e.state = .held ∨ e.state = .rewrapping .held := by
  rw [Entry.offerable, decide_eq_true_eq]

theorem Entry.not_offerable {e : Entry} (h : ¬ (e.state = .held ∨ e.state = .rewrapping .held)) :
    e.offerable = false := decide_eq_false h

theorem Entry.not_urgent {e : Entry} (h : ¬ ((e.state = .held ∨ e.state = .rewrapping .held) ∧ e.awaiting = true)) :
    (e.offerable && e.awaiting) = false := by
  rw [← Bool.not_eq_true, Bool.and_eq_true, Entry.offerable_iff]
  exact h

theorem offerCandidate_of_none {d : List Entry} (h : ∀ e ∈ d, e.offerable = false) : offerCandidate d = none := by
  rw [offerCandidate, find?_none fun e he => by rw [h e he]; rfl]
  exact find?_none h

/-- The oldest awaiting offerable entry is the candidate (R91). -/
theorem offerCandidate_of_awaiting {d older younger : List Entry} {e : Entry} (hd : d = older ++ e :: younger)
    (he : e.offerable = true) (hawaiting : e.awaiting = true)
    (hnone : ∀ x ∈ older, (x.offerable && x.awaiting) = false) : offerCandidate d = some e := by
  rw [offerCandidate, find?_split hd hnone (by rw [he, hawaiting]; rfl)]

/-- With none awaiting, the oldest offerable entry is the candidate (R91). -/
theorem offerCandidate_of_oldest {d older younger : List Entry} {e : Entry} (hd : d = older ++ e :: younger)
    (he : e.offerable = true) (hnone : ∀ x ∈ older, x.offerable = false)
    (hawaiting : ∀ x ∈ d, (x.offerable && x.awaiting) = false) : offerCandidate d = some e := by
  rw [offerCandidate, find?_none hawaiting]
  exact find?_split hd hnone he

section
variable {s : State} (r : ReadRequest) (limit : Nat)

theorem State.readOffer_full (h : 8 ≤ offeredCount s.store.directory) :
    s.readOffer r limit = s.answerWith .up .empty r.hdr [1] := if_pos h

theorem State.readOffer_none (hroom : offeredCount s.store.directory < 8)
    (h : offerCandidate s.store.directory = none) : s.readOffer r limit = s.answerWith .up .empty r.hdr [0] := by
  rw [State.readOffer, if_neg (Nat.not_le.mpr hroom : ¬ Config.offerWindow ≤ _), h]
  rfl

variable {e : Entry}

theorem State.readOffer_held (hroom : offeredCount s.store.directory < 8)
    (h : offerCandidate s.store.directory = some e) (hstate : e.state = .held) : s.readOffer r limit =
      (s.updStore fun st => st.updEntry e.number fun x => { x with state := .offered s.cfg.offerTimeout }).answerWith
        .up .ok r.hdr (descriptorWords e) := by
  simp only [State.readOffer, if_neg (Nat.not_le.mpr hroom : ¬ Config.offerWindow ≤ _), h, if_pos hstate,
    wordsOf_descriptorBytes]

theorem State.readOffer_rewrapping (hroom : offeredCount s.store.directory < 8)
    (h : offerCandidate s.store.directory = some e) (hstate : e.state ≠ .held) :
    s.readOffer r limit = s.holdAtStore .up r limit := by
  simp only [State.readOffer, if_neg (Nat.not_le.mpr hroom : ¬ Config.offerWindow ≤ _), h, if_neg hstate]

theorem State.holdAtStore_eq (p : PortId) : s.holdAtStore p r limit =
    s.updPort p fun q => { q with held := some ⟨.read r, limit, true⟩, sending := false } := by
  cases p <;> rfl

end

theorem exec_offer_of_open {index : Word} {hdr : Header} {s : State} (h : s.Open .up) :
    exec (.offer index hdr) s = .next (s.readOffer ⟨.offer, index, hdr⟩ s.cfg.holdLimit) := by
  rw [exec_of_readOf rfl, State.portRead_of_open h]
  rfl

/-- Settles O32, from what an OFFER read answers for each candidate. -/
theorem offerReadHandsOutTheCandidate : Obligations.OfferReadHandsOutTheCandidate := by
  intro index hdr s hopen offerable
  rw [exec_offer_of_open hopen]
  refine ⟨fun hfull => ?full, fun hroom hnone => ?none, fun older younger e hroom hd hnumber hfirst => ?candidate⟩
  case full => rw [State.readOffer_full _ _ hfull, State.answerWith_eq]
  case none =>
    rw [State.readOffer_none _ _ hroom (offerCandidate_of_none fun e he => Entry.not_offerable (hnone e he)),
      State.answerWith_eq]
  case candidate =>
    have hcandidate (he : e.offerable = true) : offerCandidate s.store.directory = some e := by
      rcases hfirst with ⟨hawaiting, holder⟩ | ⟨hawaiting, holder, hyounger⟩
      · exact offerCandidate_of_awaiting hd he hawaiting fun x hx => Entry.not_urgent (holder x hx)
      · refine offerCandidate_of_oldest hd he (fun x hx => Entry.not_offerable (holder x hx)) fun x hx => ?_
        rw [hd, List.mem_append, List.mem_cons] at hx
        rcases hx with hx | rfl | hx
        · exact Entry.not_urgent fun h => holder x hx h.1
        · exact Entry.not_urgent fun h => Bool.false_ne_true (hawaiting.symm.trans h.2)
        · exact Entry.not_urgent (hyounger x hx)
    refine ⟨fun hheld => ?_, fun hrewrap => ?_⟩
    · rw [State.readOffer_held _ _ hroom (hcandidate (e.offerable_iff.mpr (.inl hheld))) hheld, State.answerWith_eq,
        State.updStore, Store.updEntry, hd, updEntry_split hnumber rfl]
    · rw [State.readOffer_rewrapping _ _ hroom (hcandidate (e.offerable_iff.mpr (.inr hrewrap))) (by rw [hrewrap]; nofun),
        State.holdAtStore_eq]

/-! ### Spills (R108 to R111) -/

theorem EntryState.isRewrapping_iff (st : EntryState) : st.isRewrapping = true ↔ ∃ p, st = .rewrapping p := by
  cases st <;> simp [EntryState.isRewrapping]

theorem Entry.spillable_iff (e : Entry) :
    e.spillable = true ↔ e.state = .held ∨ e.state = .parked ∨ ∃ p, e.state = .rewrapping p := by
  rw [Entry.spillable, Bool.or_eq_true, decide_eq_true_eq, EntryState.isRewrapping_iff, or_assoc]

theorem Entry.not_spillable {e : Entry} (h : ¬ (e.state = .held ∨ e.state = .parked ∨ ∃ p, e.state = .rewrapping p)) :
    e.spillable = false := by
  rwa [← Bool.not_eq_true, Entry.spillable_iff]

theorem EntryState.not_rewrapping_of_settled {st : EntryState} (h : st = .held ∨ st = .parked) :
    st.isRewrapping = false := by
  rcases h with rfl | rfl <;> rfl

theorem spillPermitted_iff (st : Store) (cfg : Settings) :
    spillPermitted st cfg = true ↔ cfg.lowSlot < st.slotsUsed ∨ cfg.lowEntry < st.entriesUsed := by
  rw [spillPermitted, Bool.or_eq_true, decide_eq_true_eq, decide_eq_true_eq]

section
variable {s : State} (r : ReadRequest) (limit : Nat)

theorem State.readSpill_denied (h : ¬ (s.cfg.lowSlot < s.store.slotsUsed ∨ s.cfg.lowEntry < s.store.entriesUsed)) :
    s.readSpill r limit = s.denyRead .lp spillWindow r.index r.hdr := by
  rw [← spillPermitted_iff, Bool.not_eq_true] at h
  rw [State.readSpill, if_pos (by rw [h]; rfl)]

theorem State.readSpill_busy (h : s.cfg.lowSlot < s.store.slotsUsed ∨ s.cfg.lowEntry < s.store.entriesUsed)
    (hbusy : ∃ e ∈ s.store.directory, e.state = .spilling) :
    s.readSpill r limit = s.answerWith .lp .busy r.hdr [] := by
  rw [← spillPermitted_iff] at h
  rw [State.readSpill, if_neg (by rw [h]; decide), if_pos (by simpa using hbusy)]

variable (h : s.cfg.lowSlot < s.store.slotsUsed ∨ s.cfg.lowEntry < s.store.entriesUsed)
  (hfree : ∀ e ∈ s.store.directory, e.state ≠ .spilling)
include h hfree

theorem State.readSpill_none (hnone : spillCandidate s.store.directory = none) :
    s.readSpill r limit = s.answerWith .lp .empty r.hdr [0] := by
  rw [← spillPermitted_iff] at h
  rw [State.readSpill, if_neg (by rw [h]; decide), if_neg (by simpa using hfree), hnone]
  rfl

/-- The cases of a SPILL read with a candidate (R108): a REWRAPPING one holds the read, a charged one waits for a place in
the list, any other is reserved. -/
theorem State.readSpill_candidate {e : Entry} (hcandidate : spillCandidate s.store.directory = some e) :
    s.readSpill r limit =
      if e.state.isRewrapping then s.holdAtStore .lp r limit
      else if 0 < e.charge ∧ 256 ≤ s.spill.list.length then s.answerWith .lp .empty r.hdr [2]
      else
        ((s.updStore fun st => st.updEntry e.number fun x => { x with state := .spilling }).updSpill
          fun sp => { sp with reservation := some ⟨e.number, true⟩ }).answerWith .lp .ok r.hdr (descriptorWords e) := by
  rw [← spillPermitted_iff] at h
  rw [State.readSpill, if_neg (by rw [h]; decide), if_neg (by simpa using hfree), hcandidate]
  simp only [wordsOf_descriptorBytes]
  rfl

end

theorem exec_spill_of_open {index : Word} {hdr : Header} {s : State} (h : s.Open .lp) :
    exec (.spill index hdr) s = .next (s.readSpill ⟨.spill, index, hdr⟩ s.cfg.holdLimit) := by
  rw [exec_of_readOf rfl, State.portRead_of_open h]
  rfl

theorem State.denyRead_eq (s : State) (p : PortId) (target : Target) (index : Word) (hdr : Header) :
    s.denyRead p target index hdr =
      s.updPort p fun q => (q.refused (refusal target index hdr .denied)).answered .denied hdr [] := by
  cases p <;> rfl

/-- Settles O36, from what a SPILL read answers in each of its cases. -/
theorem spillReadReservesTheOldestEntry : Obligations.SpillReadReservesTheOldestEntry := by
  intro index hdr s hopen d above candidate answered
  rw [exec_spill_of_open hopen]
  refine ⟨fun hbelow => ?denied, fun habove hbusy => ?busy, fun habove hfree => ⟨fun hnone => ?none,
    fun older younger e hd hnone hnumber => ?candidate⟩⟩
  case denied => rw [State.readSpill_denied _ _ hbelow, State.denyRead_eq]
  case busy => rw [State.readSpill_busy _ _ habove hbusy]; rfl
  case none =>
    rw [State.readSpill_none _ _ habove hfree (find?_none fun e he => Entry.not_spillable (hnone e he))]
    rfl
  case candidate =>
    have hcandidate (he : candidate e) : spillCandidate s.store.directory = some e :=
      find?_split hd (fun x hx => Entry.not_spillable (hnone x hx)) (e.spillable_iff.mpr he)
    have hsettled (he : e.state = .held ∨ e.state = .parked) : candidate e := he.elim .inl fun h => .inr (.inl h)
    refine ⟨fun hrewrap => ?_, fun hstate hcharge hlist => ?_, fun hstate hroom => ?_⟩
    · rw [State.readSpill_candidate _ _ habove hfree (hcandidate (.inr (.inr hrewrap))),
        if_pos ((EntryState.isRewrapping_iff _).mpr hrewrap), State.holdAtStore_eq]
    · rw [State.readSpill_candidate _ _ habove hfree (hcandidate (hsettled hstate)),
        if_neg (by rw [EntryState.not_rewrapping_of_settled hstate]; decide), if_pos ⟨hcharge, hlist⟩]
      rfl
    · rw [State.readSpill_candidate _ _ habove hfree (hcandidate (hsettled hstate)),
        if_neg (by rw [EntryState.not_rewrapping_of_settled hstate]; decide), if_neg (by omega), State.updStore,
        Store.updEntry, show s.store.directory = older ++ e :: younger from hd, updEntry_split hnumber rfl]
      rfl

/-! ### Ring bytes (R94) -/

theorem ringWord_eq (form : BurstForm) (start k : Nat) : ringWord form start k =
    if form = .linear then (start + k) % 65536 else start / 8 * 8 + (start + k) % 8 := by
  cases form with
  | linear => rfl
  | circular =>
    rw [if_neg nofun]
    simp only [ringWord]
    omega

theorem EntryState.readable_up (st : EntryState) : st.readable .up = true ↔ ∃ timer, st = .offered timer := by
  cases st <;> simp [EntryState.readable]

theorem EntryState.readable_lp (st : EntryState) : st.readable .lp = true ↔ st = .spilling := by
  cases st <;> simp [EntryState.readable]

theorem slotReadable_iff (p : PortId) (d : List Entry) (slot : Nat) : slotReadable p d slot = true ↔
    ∃ e ∈ d, e.owns slot = true ∧
      match p with
      | .up => ∃ timer, e.state = .offered timer
      | .lp => e.state = .spilling := by
  rw [slotReadable, List.any_eq_true]
  refine exists_congr fun e => and_congr_right fun _ => ?_
  rw [Bool.and_eq_true, and_comm]
  cases p with
  | up => rw [EntryState.readable_up]
  | lp => rw [EntryState.readable_lp]

/-- Settles O33: the touched words are those of the burst, and the permission is the slots' own. -/
theorem ringReadNeedsReadableSlots : Obligations.RingReadNeedsReadableSlots := by
  intro p index hdr count s hopen hcount start word readable permitted
  have hburst : min count Config.burstLimit = count := Nat.min_eq_left hcount
  have hword (k : Nat) : ringWord hdr.form start k = word k := ringWord_eq ..
  have hwords : ringWords index hdr count = (List.range count).map word := by
    rw [ringWords, hburst]
    exact List.map_congr_left fun k _ => hword k
  have hpermitted : ringPermitted p s.store.directory index hdr count = true ↔ permitted := by
    rw [ringPermitted, hwords, Bool.and_eq_true, Bool.and_eq_true, decide_eq_true_eq, decide_eq_true_eq, and_assoc,
      List.all_map, List.all_eq_true]
    refine and_congr_right fun _ => and_congr_right fun _ => ?_
    simp only [List.mem_range, Function.comp_apply, slotReadable_iff]
    rfl
  have hexec : exec (.ringRead p index hdr count) s = .next (s.readRing p index hdr count) := by
    rw [exec_of_readOf rfl, State.portRead_of_open hopen]
    rfl
  rw [hexec, State.readRing, State.noteBurst_of_le _ _ hcount]
  refine ⟨fun h => ?_, fun h => ?_⟩
  · rw [if_pos (hpermitted.mpr h), hwords, List.map_map, State.answerWith_eq]
    rfl
  · rw [if_neg (fun hyes => h (hpermitted.mp hyes)), State.denyRead_eq]

end Sys2Proof.Machine
end

section
/-! PROOFS. ACK and the spill commands: the key table told, the reclaim from the head, and the spill list. -/

namespace Sys2Proof.Machine

/-! ### The reclaim from the head (R86, R89) -/

/-- The store `st'` is `st` reclaimed from the head: the entries out of custody at the head are gone, the head slot has
moved past their slots, and the high-mark flag is evaluated where one is gone. -/
structure Store.ReclaimedTo (st st' : Store) (cfg : Settings) : Prop where
  fields : st' = { st with
    directory := reclaimRest st.directory
    headSlot :=
      if reclaimed st.directory = [] then st.headSlot
      else if reclaimRest st.directory = [] then st.tailSlot
      else (st.headSlot + ((reclaimed st.directory).map Entry.slots).sum) % 4096
    armed := st'.armed }
  kept : reclaimed st.directory = [] → st'.armed = st.armed
  evaluated : reclaimed st.directory ≠ [] → st'.armed = (st.armed || bothLow st' cfg)

theorem reclaimRest_of_none_gone {d : List Entry} (h : reclaimed d = []) : reclaimRest d = d := by
  have hsplit := List.takeWhile_append_dropWhile (p := fun e : Entry => e.state.out) (l := d)
  rwa [show d.takeWhile (fun e => e.state.out) = [] from h, List.nil_append] at hsplit

theorem State.reclaim_reclaimedTo (s : State) :
    s.reclaim = { s with store := s.reclaim.store } ∧ s.store.ReclaimedTo s.reclaim.store s.cfg := by
  unfold State.reclaim
  split
  · next hnone =>
    have hgone : reclaimed s.store.directory = [] := by simpa using hnone
    refine ⟨rfl, ?_, fun _ => rfl, fun h => absurd hgone h⟩
    rw [if_pos hgone, reclaimRest_of_none_gone hgone]
  · next hsome =>
    have hgone : reclaimed s.store.directory ≠ [] := by simpa using hsome
    rw [State.evalLow_eq]
    refine ⟨rfl, ?_, fun h => absurd h hgone, fun _ => rfl⟩
    rw [if_neg hgone]
    simp only [State.updStore, Store.reclaim, List.isEmpty_iff, Config.ringSlots]

/-- What follows a change of the directory in an ACK or a SPILL_DONE: the key table's re-evaluation and the reclaim. -/
theorem State.settle_reclaim (s : State) :
    let t := (s.settleRetiring true).reclaim
    t = { s with store := t.store, keys := t.keys, up := { s.up with events := t.up.events } } ∧
      s.store.ReclaimedTo t.store s.cfg ∧ s.keys.Resettled t.keys s.store.directory ∧
      (s.keys.Retires s.store.directory → t.up = s.up.signalled .retired) ∧
      (¬ s.keys.Retires s.store.directory → t.up = s.up) := by
  intro t
  obtain ⟨hresettled, hretires, hkeeps⟩ := s.settleRetiring_resettled true
  obtain ⟨k, v, hsettle⟩ := s.settleRetiring_eq true
  obtain ⟨hreclaim, hstore⟩ := (s.settleRetiring true).reclaim_reclaimedTo
  have hkeys : t.keys = (s.settleRetiring true).keys := State.reclaim_keys _
  have hup : t.up = (s.settleRetiring true).up := State.reclaim_up _
  have hframe : t = { s.settleRetiring true with store := t.store } := hreclaim
  rw [State.settleRetiring_store, State.settleRetiring_cfg] at hstore
  refine ⟨hframe.trans ?_, hstore, hkeys ▸ hresettled, fun h => ?_, fun h => ?_⟩
  · rw [hup, hkeys, hsettle]
  · rw [hup, hretires h]
    rfl
  · rw [hup, hkeeps h]

/-! ### ACK (R96, R97) -/

theorem EntryState.ackable_of {st : EntryState} (hwriting : st ≠ .writing) (hspilled : st ≠ .spilled)
    (hconfirmed : st ≠ .confirmed) : st.ackable = true := by
  cases st <;> simp_all [EntryState.ackable]

section
variable {n : Nat} {index : Word} {hdr : Header} {s : State}

theorem ackEffect_confirms {e : Entry} (hfound : findEntry n s.store.directory = some e)
    (hack : e.state.ackable = true) : ackEffect index hdr n s = (confirmEntry e s).linkSign := by
  simp only [ackEffect, hfound, hack, if_true]

theorem ackEffect_writing {e : Entry} (hfound : findEntry n s.store.directory = some e) (hwriting : e.state = .writing) :
    ackEffect index hdr n s = (s.recordRefusal .up confirmWindow index hdr .notHeld).linkSign := by
  simp [ackEffect, hfound, hwriting, EntryState.ackable]

theorem ackEffect_other
    (hout : ∀ e, findEntry n s.store.directory = some e → e.state = .spilled ∨ e.state = .confirmed) :
    ackEffect index hdr n s = (ackSpillList n index hdr s).linkSign := by
  unfold ackEffect
  dsimp only
  split
  · next e he => rcases hout e he with hstate | hstate <;> simp [hstate, EntryState.ackable]
  · rfl

theorem findSpill_eq_none {l : List SpillItem} (h : ∀ x ∈ l, x.number ≠ n) : findSpill n l = none :=
  List.find?_eq_none.mpr fun x hx => by simpa using h x hx

theorem findSpill_split {before after : List SpillItem} {x : SpillItem} (hx : x.number = n)
    (h : ∀ y ∈ before, y.number ≠ n) : findSpill n (before ++ x :: after) = some x :=
  List.find?_eq_some_iff_append.mpr ⟨by simpa using hx, before, after, rfl, fun y hy => by simpa using h y hy⟩

theorem removeSpill_split {before after : List SpillItem} {x : SpillItem} (hx : x.number = n)
    (h : ∀ y ∈ before, y.number ≠ n) : removeSpill n (before ++ x :: after) = before ++ after := by
  induction before with
  | nil => simp [removeSpill, hx]
  | cons y ys ih =>
    rw [List.cons_append, removeSpill, if_neg (h y (by simp)), ih fun z hz => h z (by simp [hz]), List.cons_append]

end

theorem confirmEntry_held (e : Entry) (s : State) (p : PortId) :
    ((confirmEntry e s).port p).held = (s.port p).held := by
  rw [confirmEntry, State.reclaim_held, State.settleRetiring_held]
  cases p <;> rfl

/-- Settles O34: a confirmed entry's state from the re-evaluation and the reclaim, and the spill list's three cases. -/
theorem ackReleasesCharges : Obligations.AckReleasesCharges := by
  refine ⟨fun index hdr number extra s s' e happ hfound hwriting hspilled hconfirmed => ?confirmed,
    fun index hdr number extra s s' happ => ?others⟩
  case confirmed =>
    intro d gone rest
    obtain ⟨-, -, hlink, hstore, hspill, hcfg, hkeys, -, -, hmeter⟩ := happ.fields
    have heffect : ackEffect index hdr number.toNat s' = (confirmEntry e s').linkSign :=
      ackEffect_confirms (hstore ▸ hfound) (EntryState.ackable_of hwriting hspilled hconfirmed)
    rw [exec_of_applies happ rfl heffect (by rw [State.linkSign_held, confirmEntry_held])]
    let u : State := { s' with
      store := { s'.store with directory := d }
      meter := s.meter - e.charge
      spill := { s.spill with reservation := if e.state = .spilling then some ⟨e.number, false⟩ else s.spill.reservation } }
    have hu : confirmEntry e s' = (u.settleRetiring true).reclaim := by
      simp only [confirmEntry, u, d, ← hstore, ← hspill, ← hmeter]
      rfl
    obtain ⟨hframe, hreclaimed, hresettled, hretires, hkeeps⟩ := u.settle_reclaim
    rw [hu]
    generalize (u.settleRetiring true).reclaim = v at hframe hreclaimed hresettled hretires hkeeps ⊢
    have hvlink : v.link = s'.link := by rw [hframe]
    have hvcfg : v.cfg = s'.cfg := by rw [hframe]
    have hvup (h : v.up = u.up) : v.linkSign.up = s'.linkSign.up := by
      rw [State.linkSign_eq, State.linkSign_eq, hvlink, hvcfg, h]
    have hvretired (h : v.up = u.up.signalled .retired) :
        v.linkSign.up = ({ s' with up := s'.up.signalled .retired } : State).linkSign.up := by
      rw [State.linkSign_eq, State.linkSign_eq, hvlink, hvcfg, h]
    have hvstore : v.linkSign.store = v.store := State.linkSign_store _
    have hkeysEq : v.linkSign.keys = v.keys := State.linkSign_keys _
    rw [← hvstore] at hreclaimed
    rw [← hkeysEq] at hresettled
    have hustore : u.store = { s.store with directory := d } := by rw [← hstore]
    have hucfg : u.cfg = s.cfg := hcfg
    rw [hustore, hucfg] at hreclaimed
    have hukeys : u.keys = s.keys := hkeys
    rw [hukeys, show u.store.directory = d from rfl] at hresettled hretires hkeeps
    refine ⟨_, rfl, ?frame, ?spill, hreclaimed.fields, hreclaimed.kept, hreclaimed.evaluated, hresettled,
      fun h => hvretired (hretires h), fun h => hvup (hkeeps h)⟩
    case frame =>
      rw [State.linkSign_eq, hvlink, hvcfg, hlink, hcfg, hframe]
    case spill =>
      rw [State.linkSign_spill, hframe]
  case others =>
    intro n refused
    obtain ⟨-, -, -, hstore, hspill, -, -, -, -, hmeter⟩ := happ.fields
    refine ⟨fun ⟨e, hfound, hwriting⟩ => ?writing, fun hout => ?list⟩
    case writing =>
      have heffect : ackEffect index hdr n s' = refused := by
        rw [ackEffect_writing (hstore ▸ hfound) hwriting, State.recordRefusal_eq]
      exact exec_of_applies happ rfl heffect (by rw [State.linkSign_held]; rfl)
    case list =>
      have heffect : ackEffect index hdr n s' = (ackSpillList n index hdr s').linkSign :=
        ackEffect_other (hstore ▸ hout)
      refine ⟨fun before after x hlist hx hbefore => ?released, fun hnone => ?notHeld⟩
      case released =>
        have hfound : findSpill n s'.spill.list = some x := by rw [hspill, hlist]; exact findSpill_split hx hbefore
        have hlist' : ackSpillList n index hdr s' = { s' with
            spill := { s.spill with list := before ++ after }, meter := s.meter - x.charge } := by
          simp only [ackSpillList, hfound, State.updSpill, State.release, State.setMeter]
          rw [hspill, hlist, removeSpill_split hx hbefore, hmeter]
        refine exec_of_applies happ rfl (heffect.trans (by rw [hlist'])) ?_
        rw [State.linkSign_held]
        rfl
      case notHeld =>
        have hnotFound : findSpill n s'.spill.list = none := findSpill_eq_none (hspill ▸ hnone)
        refine exec_of_applies happ rfl (heffect.trans ?_) (by rw [State.linkSign_held]; rfl)
        simp only [ackSpillList, hnotFound, State.recordRefusal_eq, refused]

/-! ### SPILL_DONE (R112, R113) -/

theorem State.reserved_of_live {s : State} {n : Nat} (h : s.spill.reservation = some ⟨n, true⟩) : s.reserved n = true := by
  simp [State.reserved, h]

theorem State.not_reserved_of_gone {s : State} {n : Nat} (h : s.spill.reservation = some ⟨n, false⟩) :
    s.reserved n = false := by
  simp [State.reserved, h]

theorem State.not_reserved_of_other {s : State} {n : Nat} (h : ∀ live, s.spill.reservation ≠ some ⟨n, live⟩) :
    s.reserved n = false := by
  unfold State.reserved
  split
  · next r hr =>
    have hnumber : r.number ≠ n := fun heq => h r.live (by rw [hr, ← heq])
    rw [decide_eq_false hnumber, Bool.and_false]
  · rfl

theorem addSpill_of_new {x : SpillItem} {l : List SpillItem} (h : ∀ y ∈ l, y.number ≠ x.number) :
    addSpill x l = l ++ [x] := by
  induction l with
  | nil => rfl
  | cons y ys ih =>
    rw [addSpill, if_neg (h y (by simp)), ih fun z hz => h z (by simp [hz]), List.cons_append]

theorem addSpill_split {x y : SpillItem} {before after : List SpillItem} (hy : y.number = x.number)
    (h : ∀ z ∈ before, z.number ≠ x.number) :
    addSpill x (before ++ y :: after) = before ++ ⟨y.number, y.charge + x.charge, x.batch⟩ :: after := by
  induction before with
  | nil => simp [addSpill, hy]
  | cons z zs ih =>
    rw [List.cons_append, addSpill, if_neg (h z (by simp)), ih fun a ha => h a (by simp [ha]), List.cons_append]

theorem spillDoneEffect_spills {index : Word} {hdr : Header} {n : Nat} {s : State} {e : Entry}
    (hlive : s.spill.reservation = some ⟨n, true⟩) (hfound : findEntry n s.store.directory = some e)
    (hstate : e.state = .spilling) : spillDoneEffect index hdr n s = spillEntry e s := by
  simp only [spillDoneEffect, State.reserved_of_live hlive, hfound, hstate, if_true]

theorem spillEntry_held (e : Entry) (s : State) (p : PortId) : ((spillEntry e s).port p).held = (s.port p).held := by
  rw [spillEntry, State.reclaim_held, State.settleRetiring_held]
  cases p <;> rfl

/-- Settles O37: the entry's and the list's change, then the re-evaluation and the reclaim. -/
theorem spillDoneMovesTheCharge : Obligations.SpillDoneMovesTheCharge := by
  intro index hdr number extra s s' e happ hlive hfound hstate d gone rest
  obtain ⟨-, -, -, hstore, hspill, hcfg, hkeys, -, -, -⟩ := happ.fields
  have hup : s'.up = s.up := happ.other.1 rfl
  have heffect : spillDoneEffect index hdr number.toNat s' = spillEntry e s' :=
    spillDoneEffect_spills (hspill ▸ hlive) (hstore ▸ hfound) hstate
  rw [exec_of_applies happ rfl heffect (spillEntry_held ..)]
  let u : State := { s' with
    store := { s.store with directory := d }
    spill := { reservation := none, list := listAfterSpill e s.spill.list } }
  have hu : spillEntry e s' = (u.settleRetiring true).reclaim := by
    simp only [spillEntry, u, d, ← hstore, ← hspill]
    rfl
  obtain ⟨hframe, hreclaimed, hresettled, hretires, hkeeps⟩ := u.settle_reclaim
  rw [hu]
  generalize (u.settleRetiring true).reclaim = v at hframe hreclaimed hresettled hretires hkeeps ⊢
  have hvspill : v.spill = u.spill := by rw [hframe]
  have hvlist : v.spill.list = listAfterSpill e s.spill.list := congrArg Spill.list hvspill
  rw [show u.cfg = s.cfg from hcfg] at hreclaimed
  rw [show u.keys = s.keys from hkeys] at hresettled hretires hkeeps
  rw [show u.up = s.up from hup] at hretires hkeeps
  refine ⟨v, rfl, ?frame, hreclaimed.kept, hreclaimed.evaluated, by rw [hvspill], fun hfree => ?free,
    fun hcharge hnew => ?appended, fun before after x hcharge hlist hx hbefore => ?merged, hresettled, hretires, hkeeps⟩
  case frame =>
    refine hframe.trans ?_
    rw [hvspill, ← hup]
    congr 1
    exact hreclaimed.fields
  case free => rw [hvlist, listAfterSpill, if_neg (by omega)]
  case appended => rw [hvlist, listAfterSpill, if_pos hcharge, addSpill_of_new hnew]
  case merged => rw [hvlist, listAfterSpill, if_pos hcharge, hlist, addSpill_split hx hbefore]

/-! ### SPILL_CANCEL and the refused spill commands (R112, R114) -/

theorem updEntry_congr {n : Nat} {f g : Entry → Entry} {d : List Entry}
    (h : ∀ e, findEntry n d = some e → f e = g e) : updEntry n f d = updEntry n g d := by
  induction d with
  | nil => rfl
  | cons e es ih =>
    unfold updEntry
    by_cases hn : e.number = n
    · rw [if_pos hn, if_pos hn, h e (by simp [findEntry, hn])]
    · rw [if_neg hn, if_neg hn, ih fun x hx => h x (by simpa [findEntry, hn] using hx)]

theorem spillCancelEffect_cancels {index : Word} {hdr : Header} {n : Nat} {s : State} {e : Entry}
    (hlive : s.spill.reservation = some ⟨n, true⟩) (hfound : findEntry n s.store.directory = some e)
    (hstate : e.state = .spilling) :
    let d := updEntry n (fun x => { x with state := .held }) s.store.directory
    spillCancelEffect index hdr n s = { s with
      store := { s.store with directory := d }
      spill := { s.spill with reservation := none }
      keys := { s.keys with campaign := s.keys.lookedOver d }
      up := s.up.signalled .offerReady } := by
  intro d
  have hd : updEntry n (fun x => { x with state := if x.state = .spilling then .held else x.state })
      s.store.directory = d :=
    updEntry_congr fun x hx => by
      cases hx.symm.trans hfound
      rw [if_pos hstate]
  rw [spillCancelEffect, if_pos (State.reserved_of_live hlive), State.campaignLook_lookedOver]
  simp only [State.updSpill, State.updStore, Store.updEntry, hd]
  rfl

section
variable {s s' : State} {index : Word} {hdr : Header} {n : Nat}

theorem refuseSpill_gone (h : s.spill.reservation = some ⟨n, false⟩) : refuseSpill index hdr n s =
    ({ s with spill := { s.spill with reservation := none } }.recordRefusal .lp spillWindow index hdr .gone) := by
  simp only [refuseSpill, h, if_true]
  rfl

theorem refuseSpill_notSpilling (h : ∀ live, s.spill.reservation ≠ some ⟨n, live⟩) :
    refuseSpill index hdr n s = s.recordRefusal .lp spillWindow index hdr .notSpilling := by
  unfold refuseSpill
  split
  · next r hr => rw [if_neg fun heq => h r.live (by rw [hr, ← heq])]
  · rfl

/-- A 32-bit number in two data words is read back (12.1). -/
theorem value32_halves (number : BitVec 32) :
    value32 (number.extractLsb' 16 16) (number.extractLsb' 0 16) = number.toNat := by
  have := number.isLt
  simp only [value32, BitVec.extractLsb'_toNat, Nat.shiftRight_eq_div_pow]
  omega

theorem spillBadEffect_wellFormed {command : Word} {number : BitVec 32} {extra : List DataWord}
    (hcommand : command = spillDoneWord ∨ command = spillCancelWord) :
    spillBadEffect index hdr (spillWrite index hdr command number extra).words s =
      if s.reserved number.toNat then s else refuseSpill index hdr number.toNat s := by
  have hvalues : values (spillWrite index hdr command number extra).words =
      command :: number.extractLsb' 16 16 :: number.extractLsb' 0 16 :: values extra := rfl
  have hfault : spillFault (values (spillWrite index hdr command number extra).words) = none := by
    rw [hvalues, spillFault, if_pos hcommand]
  have hnumber : commandNumber (values (spillWrite index hdr command number extra).words) = number.toNat := by
    rw [hvalues, commandNumber, value32_halves]
  simp only [spillBadEffect, hfault, hnumber]

/-- A spill write whose effect is the refusal of its command answers GONE, and drops the reservation, where that is GONE,
and NOT_SPILLING where no reservation has its number (R112). -/
theorem exec_of_applies_refuseSpill {c : Instr} {w : PostedWrite} {effect : State → State} (happ : s.Applies .lp w s')
    (hexec : exec c s = .next (s.portWrite .lp .apply w effect))
    (heffect : s'.reserved n = false → effect s' = refuseSpill index hdr n s') :
    (s.spill.reservation = some ⟨n, false⟩ → exec c s = .next (({ s' with
      spill := { s.spill with reservation := none } }).updPort .lp fun q =>
        q.refused (refusal spillWindow index hdr .gone))) ∧
    ((∀ live, s.spill.reservation ≠ some ⟨n, live⟩) →
      exec c s = .next (s'.updPort .lp fun q => q.refused (refusal spillWindow index hdr .notSpilling))) := by
  obtain ⟨-, -, -, -, hspill, -⟩ := happ.fields
  rw [← hspill]
  refine ⟨fun hgone => ?_, fun hother => ?_⟩
  · refine exec_of_applies happ hexec ?_ rfl
    rw [heffect (State.not_reserved_of_gone hgone), refuseSpill_gone hgone, State.recordRefusal_eq]
  · refine exec_of_applies_refused happ hexec ?_
    rw [heffect (State.not_reserved_of_other hother), refuseSpill_notSpilling hother]

end

/-- Settles O38: the cancelled reservation, and the one refusal that all spill commands share. -/
theorem spillCommandsFollowTheReservation : Obligations.SpillCommandsFollowTheReservation := by
  intro index hdr number extra s s' n gone notSpilling noMatch
  refine ⟨fun happ => ⟨fun e hlive hfound hstate => ?cancelled, ?cancelRefused⟩, fun happ => ?doneRefused,
    fun command hcommand happ => ?refused⟩
  case cancelled =>
    intro d
    obtain ⟨-, -, -, hstore, hspill, -, hkeys, -⟩ := happ.fields
    have hup : s'.up = s.up := happ.other.1 rfl
    refine exec_of_applies happ rfl ((spillCancelEffect_cancels (hspill ▸ hlive) (hstore ▸ hfound) hstate).trans ?_) rfl
    rw [hstore, hspill, hkeys, hup]
  case cancelRefused =>
    exact exec_of_applies_refuseSpill happ rfl fun hnot => if_neg (by rw [hnot]; exact Bool.false_ne_true)
  case doneRefused =>
    exact exec_of_applies_refuseSpill happ rfl fun hnot => if_neg (by rw [hnot]; exact Bool.false_ne_true)
  case refused =>
    refine exec_of_applies_refuseSpill happ rfl fun hnot => ?_
    rw [shorten_of_le happ.length_le, spillBadEffect_wellFormed hcommand, if_neg]
    rw [hnot]
    exact Bool.false_ne_true

end Sys2Proof.Machine
end

section
/-! PROOFS. ROLL and the use limit: what a roll makes of the key table, and when a new limit makes one. -/

namespace Sys2Proof.Machine

/-! ### The facts of a roll (R165, R166) -/

theorem KeyTable.erased_active (k : KeyTable) : k.erased.find .active = k.find .active := by
  simp only [KeyTable.find, KeyTable.erased, Vector.toList_map]
  generalize k.slots.toList = l
  induction l with
  | nil => rfl
  | cons o os ih =>
    rcases o with _ | ⟨r, _, _, _, _, _⟩
    · exact ih
    · cases r
      · exact ih
      · rfl
      · exact ih

section
variable {k k' : KeyTable} {d : List Entry}

/-- After a roll the NEXT key is ACTIVE, whether the key before it is retiring or erased. -/
theorem KeyTable.Rolled.active_eq (h : k.Rolled k' d) : k'.find .active =
    (k.find .next).map fun v => { v with role := .active, uses := 0, wear := false } := by
  obtain ⟨halone, hbefore⟩ := h
  cases hactive : k.active with
  | none => rw [halone hactive, KeyTable.turned_active]
  | some w =>
    obtain ⟨herased, hkept⟩ := hbefore w hactive
    rcases Nat.eq_zero_or_pos (custodyCount w.epoch d) with hzero | hpos
    · rw [herased hzero, KeyTable.erased_active, KeyTable.turned_active]
    · rw [hkept hpos]
      exact KeyTable.turned_active k

theorem KeyTable.Rolled.pendingRoll_highest (h : k.Rolled k' d) :
    k'.pendingRoll = false ∧ k'.highest = k.highest ∧ k'.useLimit = k.useLimit := by
  obtain ⟨halone, hbefore⟩ := h
  cases hactive : k.active with
  | none =>
    rw [halone hactive]
    exact ⟨rfl, rfl, rfl⟩
  | some w =>
    obtain ⟨herased, hkept⟩ := hbefore w hactive
    rcases Nat.eq_zero_or_pos (custodyCount w.epoch d) with hzero | hpos
    · rw [herased hzero]
      exact ⟨rfl, rfl, rfl⟩
    · rw [hkept hpos]
      exact ⟨rfl, rfl, rfl⟩

theorem KeyTable.Rolled.retiring_of_alone (h : k.Rolled k' d) (hret : k.find .retiring = none)
    (hactive : k.active = none) : k'.find .retiring = none := by
  rw [h.1 hactive, KeyTable.turned_retiring hret, hactive]
  rfl

theorem KeyTable.Rolled.retiring_of_empty {w : WrapKey} (h : k.Rolled k' d) (hactive : k.active = some w)
    (hzero : custodyCount w.epoch d = 0) : k'.find .retiring = none ∧ k'.retiring = 0 := by
  rw [(h.2 w hactive).1 hzero]
  exact ⟨KeyTable.erased_retiring _, rfl⟩

theorem KeyTable.Rolled.retiring_of_custody {w : WrapKey} (h : k.Rolled k' d) (hret : k.find .retiring = none)
    (hactive : k.active = some w) (hpos : 0 < custodyCount w.epoch d) :
    k'.find .retiring = some { w with role := .retiring } ∧ k'.retiring = custodyCount w.epoch d := by
  rw [(h.2 w hactive).2 hpos]
  exact ⟨(KeyTable.turned_retiring hret).trans (by rw [hactive]; rfl), rfl⟩

end

/-! ### ROLL (R165) -/

/-- Settles O42: the two refusals, and the roll's key table from the facts of a roll. -/
theorem rollActivatesTheNextKey : Obligations.RollActivatesTheNextKey := by
  intro index hdr extra s s' happ refused
  obtain ⟨-, -, -, hstore, -, -, hkeys, -⟩ := happ.fields
  refine ⟨fun hret => ?busy, fun hret hnext => ?noKey, fun v hret hnext => ?rolled⟩
  case busy =>
    refine exec_of_applies_refused happ rfl (if_pos ?_)
    rw [hkeys]
    exact Option.isSome_iff_ne_none.mpr hret
  case noKey =>
    refine exec_of_applies_refused happ rfl ((if_neg ?_).trans (if_pos ?_))
    · rw [hkeys, hret]
      decide
    · rw [hkeys, hnext]
      rfl
  case rolled =>
    have heffect : rollEffect index hdr s' = s'.roll true := by
      rw [rollEffect, hkeys, hret, hnext]
      rfl
    obtain ⟨hrolled, ht⟩ := State.roll_rolled (hkeys ▸ hret : s'.keys.find .retiring = none) true
    rw [hkeys, hstore] at hrolled
    rw [hkeys, hstore] at ht
    have hup := congrArg State.up ht
    have hquiet (h : ¬ ∃ w, s.keys.active = some w ∧ custodyCount w.epoch s.store.directory = 0) :
        (s'.roll true).up = s'.up := by
      rw [hup, if_neg fun hboth => h hboth.2]
    obtain ⟨hpending, hhighest, -⟩ := hrolled.pendingRoll_highest
    refine ⟨_, exec_of_applies happ rfl heffect (State.roll_held ..), ?frame, hrolled, ?active, hpending, hhighest,
      fun halone => ⟨hrolled.retiring_of_alone hret halone, ?_⟩, fun w hw => ⟨fun hzero => ?empty, fun hpos => ?custody⟩⟩
    case frame => rw [hup, hstore]; exact ht
    case active => rw [hrolled.active_eq, hnext]; rfl
    case empty =>
      obtain ⟨hfind, hcount⟩ := hrolled.retiring_of_empty hw hzero
      refine ⟨hfind, hcount, hup.trans ?_⟩
      rw [if_pos ⟨rfl, w, hw, hzero⟩]
      rfl
    case custody =>
      obtain ⟨hfind, hcount⟩ := hrolled.retiring_of_custody hret hw hpos
      refine ⟨hfind, hcount, hquiet ?_⟩
      rintro ⟨w', hw', hzero⟩
      cases hw'.symm.trans hw
      omega
    · refine hquiet ?_
      rintro ⟨w, hw, -⟩
      cases halone.symm.trans hw

/-! ### The use limit (R162 to R164) -/

/-- The key table under a new use limit, with the wear flag of its ACTIVE key `w` tested (R163). -/
def KeyTable.tested (k : KeyTable) (limit : Nat) (w : WrapKey) : KeyTable :=
  { k with
    useLimit := limit
    slots := k.slots.map fun o => o.map fun v =>
      if v.role = .active then { v with wear := v.wear || (decide (limit - limit / 16 ≤ w.uses) && !w.wear) } else v }

/-- A change of the keys that keeps their roles is seen through the role's key. -/
theorem KeyTable.find_map {k k' : KeyTable} {f : WrapKey → WrapKey} (hslots : k'.slots = k.slots.map fun o => o.map f)
    (hrole : ∀ v, (f v).role = v.role) (r : Role) : k'.find r = (k.find r).map f := by
  simp only [KeyTable.find, hslots, Vector.toList_map]
  generalize k.slots.toList = l
  induction l with
  | nil => rfl
  | cons o os ih =>
    rw [List.map_cons, List.findSome?_cons, List.findSome?_cons, ih]
    cases o with
    | none => rfl
    | some v => by_cases hv : v.role = r <;> simp [Option.filter, hrole, hv]

theorem KeyTable.tested_find {k : KeyTable} (limit : Nat) (w : WrapKey) (r : Role) : (k.tested limit w).find r =
    (k.find r).map fun v =>
      if v.role = .active then { v with wear := v.wear || (decide (limit - limit / 16 ≤ w.uses) && !w.wear) } else v :=
  KeyTable.find_map rfl (fun v => by split <;> rfl) r

theorem KeyTable.tested_find_other {k : KeyTable} (limit : Nat) (w : WrapKey) {r : Role} (h : r ≠ .active) :
    (k.tested limit w).find r = k.find r := by
  rw [KeyTable.tested_find]
  cases hfind : k.find r with
  | none => rfl
  | some v =>
    obtain ⟨-, -, hrole⟩ := KeyTable.find_eq_some hfind
    rw [Option.map_some, if_neg (hrole ▸ h)]

theorem KeyTable.tested_active {k : KeyTable} {w : WrapKey} (limit : Nat) (h : k.active = some w) :
    (k.tested limit w).active =
      some { w with wear := w.wear || (decide (limit - limit / 16 ≤ w.uses) && !w.wear) } := by
  obtain ⟨-, -, hrole⟩ := KeyTable.find_eq_some h
  rw [KeyTable.active, KeyTable.tested_find, show k.find .active = some w from h, Option.map_some, if_pos hrole]

theorem KeyTable.updRole_worn (k : KeyTable) : k.updRole .active (fun v => some { v with wear := true }) =
    { k with slots := k.slots.map fun o => o.map fun v => if v.role = .active then { v with wear := true } else v } := by
  simp only [KeyTable.updRole, KeyTable.mapKeys]
  congr 2
  funext o
  cases o with
  | none => rfl
  | some v => by_cases hv : v.role = .active <;> simp [hv]

/-- The wear test under a new limit: the flag set with KEY_WEAR where the wear point is reached and it was clear. -/
theorem State.testWear_tested {s : State} {w : WrapKey} (limit : Nat) (h : s.keys.active = some w) :
    let worn := decide (limit - limit / 16 ≤ w.uses) && !w.wear
    (s.updKeys fun k => { k with useLimit := limit }).testWear = { s with
      keys := s.keys.tested limit w
      up := { s.up with events := s.up.events ||| (if worn then Event.keyWear.bit else 0) } } := by
  intro worn
  have hactive : (s.updKeys fun k => { k with useLimit := limit }).keys.active = some w := h
  have hlimit : (s.updKeys fun k => { k with useLimit := limit }).keys.useLimit = limit := rfl
  have htest : wearPoint limit ≤ w.uses ∧ w.wear = false ↔ worn = true := by
    rw [Bool.and_eq_true, decide_eq_true_eq, Bool.not_eq_true', wearPoint]
  unfold State.testWear
  rw [hactive, hlimit]
  dsimp only
  rw [KeyTable.tested, show (decide (limit - limit / 16 ≤ w.uses) && !w.wear) = worn from rfl]
  cases hworn : worn with
  | true =>
    rw [if_pos (htest.mpr hworn), if_pos rfl]
    simp only [State.updKeys, KeyTable.updRole_worn, Bool.or_true]
    rfl
  | false =>
    rw [if_neg (fun h => Bool.false_ne_true (hworn.symm.trans (htest.mp h))), if_neg Bool.false_ne_true]
    simp [State.updKeys]

/-- The spending of the ACTIVE key without a roll (R164): KEY_SPENT on both ports without a NEXT key, and else the
pending-roll flag while a key is RETIRING. -/
theorem State.onSpent_without_roll {s : State} (h : s.keys.find .next = none ∨ s.keys.find .retiring ≠ none) :
    let bit := if s.keys.find .next = none then Event.keySpent.bit else 0
    s.onSpent = { s with
      keys := { s.keys with pendingRoll := if s.keys.find .next = none then s.keys.pendingRoll else true }
      lp := { s.lp with events := s.lp.events ||| bit }
      up := { s.up with events := s.up.events ||| bit } } := by
  intro bit
  unfold State.onSpent
  cases hnext : s.keys.find .next with
  | none =>
    simp only [bit, hnext, if_true]
    rfl
  | some v =>
    cases hret : s.keys.find .retiring with
    | none => exact absurd hret (h.resolve_left (by simp [hnext]))
    | some w => simp [bit, hnext, State.updKeys]

theorem State.onSpent_rolls {s : State} (hnext : s.keys.find .next ≠ none) (hret : s.keys.find .retiring = none) :
    s.onSpent = s.roll true := by
  unfold State.onSpent
  cases h : s.keys.find .next with
  | none => exact absurd h hnext
  | some v => rw [hret]

/-- What a new use limit makes of a state with an ACTIVE key `w` (R162 to R164): the wear test, and by the limits before
and after the spending with its event, its flag or its roll, or the end of the spending. -/
theorem useLimitEffect_of_active {s : State} {w : WrapKey} (long : Nat) (h : s.keys.active = some w) :
    let limit := storedLimit long
    let k := s.keys.tested limit w
    let worn := decide (limit - limit / 16 ≤ w.uses)
    let spends := limit ≤ w.uses ∧ w.uses < s.keys.useLimit
    let rolls := spends ∧ s.keys.find .next ≠ none ∧ s.keys.find .retiring = none
    let bit := fun (b : Bool) (e : Event) => if b then e.bit else 0
    let t := useLimitEffect long s
    t = { s with
      keys := t.keys
      lp := { s.lp with events := s.lp.events ||| bit (spends ∧ s.keys.find .next = none) .keySpent }
      up := { s.up with
        events := s.up.events ||| bit (worn = true ∧ w.wear = false) .keyWear |||
          bit (spends ∧ s.keys.find .next = none) .keySpent |||
          bit (rolls ∧ custodyCount w.epoch s.store.directory = 0) .retired } } ∧
    (rolls → k.Rolled t.keys s.store.directory) ∧
    (¬ rolls → t.keys = { k with
      pendingRoll :=
        if w.uses < limit ∧ s.keys.useLimit ≤ w.uses then false
        else if spends ∧ s.keys.find .next ≠ none then true
        else s.keys.pendingRoll }) := by
  intro limit k worn spends rolls bit t
  let u : State := { s with
    keys := k, up := { s.up with events := s.up.events ||| bit (worn = true ∧ w.wear = false) .keyWear } }
  have hworn : (decide (limit - limit / 16 ≤ w.uses) && !w.wear) = decide (worn = true ∧ w.wear = false) := by
    cases hwear : w.wear <;> simp [worn]
  have hu : (s.updKeys fun k => { k with useLimit := limit }).testWear = u := by
    rw [State.testWear_tested limit h, hworn]
  have hkactive : k.active = some _ := KeyTable.tested_active limit h
  have hspent : u.keys.activeSpent = decide (limit ≤ w.uses) := by
    rw [KeyTable.activeSpent, hkactive]
    rfl
  have hwas : s.keys.activeSpent = decide (s.keys.useLimit ≤ w.uses) := by
    rw [KeyTable.activeSpent, h]
    rfl
  have hnext : u.keys.find .next = s.keys.find .next := KeyTable.tested_find_other limit w nofun
  have hret : u.keys.find .retiring = s.keys.find .retiring := KeyTable.tested_find_other limit w nofun
  have ht : t = if decide (limit ≤ w.uses) then (if decide (s.keys.useLimit ≤ w.uses) then u else u.onSpent)
      else if decide (s.keys.useLimit ≤ w.uses) then u.updKeys fun k => { k with pendingRoll := false } else u := by
    rw [← hspent, ← hwas, ← hu]
    rfl
  by_cases hreached : limit ≤ w.uses
  · rw [if_pos (decide_eq_true hreached)] at ht
    by_cases hbefore : s.keys.useLimit ≤ w.uses
    · have hno : ¬ spends := fun hs => Nat.not_lt.mpr hbefore hs.2
      rw [if_pos (decide_eq_true hbefore)] at ht
      rw [ht]
      refine ⟨?_, fun hr => absurd hr.1 hno, fun _ => ?_⟩
      · simp [u, bit, hno, rolls]
      · simp [u, hno, Nat.not_lt.mpr hreached]
        rfl
    · have hspends : spends := ⟨hreached, Nat.lt_of_not_le hbefore⟩
      rw [if_neg (by simpa using hbefore)] at ht
      by_cases hrolls : rolls
      · obtain ⟨-, hsome, hnone⟩ := hrolls
        obtain ⟨hrolled, hroll⟩ := State.roll_rolled (s := u) (hret.trans hnone) true
        rw [State.onSpent_rolls (hnext ▸ hsome) (hret.trans hnone)] at ht
        have hretires : (∃ v, u.keys.active = some v ∧ custodyCount v.epoch u.store.directory = 0) ↔
            custodyCount w.epoch s.store.directory = 0 := by
          rw [show u.keys.active = some _ from hkactive]
          simp [u]
        rw [ht]
        refine ⟨?_, fun _ => hrolled, fun hr => absurd ⟨hspends, hsome, hnone⟩ hr⟩
        by_cases hzero : custodyCount w.epoch s.store.directory = 0
        · rw [if_pos ⟨rfl, hretires.mpr hzero⟩] at hroll
          exact hroll.trans (by simp [u, bit, hsome, hnone, hzero, rolls, hspends])
        · rw [if_neg fun hyes => hzero (hretires.mp hyes.2)] at hroll
          exact hroll.trans (by simp [u, bit, hsome, hzero])
      · have hquiet : s.keys.find .next = none ∨ s.keys.find .retiring ≠ none := by
          by_cases hnone : s.keys.find .next = none
          · exact .inl hnone
          · exact .inr fun halone => hrolls ⟨hspends, hnone, halone⟩
        rw [State.onSpent_without_roll (by rw [hnext, hret]; exact hquiet), hnext] at ht
        rw [ht]
        refine ⟨?_, fun hr => absurd hr hrolls, fun _ => ?_⟩
        · by_cases hnone : s.keys.find .next = none <;> simp [u, bit, hnone, hspends, hrolls]
        · by_cases hnone : s.keys.find .next = none <;> simp [u, hnone, hspends, Nat.not_lt.mpr hreached]
          rfl
  · have hno : ¬ spends := fun hs => hreached hs.1
    rw [if_neg (by simpa using hreached)] at ht
    by_cases hbefore : s.keys.useLimit ≤ w.uses
    · rw [if_pos (decide_eq_true hbefore)] at ht
      rw [ht]
      refine ⟨?_, fun hr => absurd hr.1 hno, fun _ => ?_⟩
      · simp [u, bit, hno, rolls, State.updKeys]
      · simp [u, hbefore, Nat.lt_of_not_le hreached, State.updKeys]
    · rw [if_neg (by simpa using hbefore)] at ht
      rw [ht]
      refine ⟨?_, fun hr => absurd hr.1 hno, fun _ => ?_⟩
      · simp [u, bit, hno, rolls]
      · simp [u, hno, hbefore]
        rfl

theorem useLimitEffect_of_inactive {s : State} (long : Nat) (h : s.keys.active = none) :
    useLimitEffect long s = { s with keys := { s.keys with useLimit := storedLimit long } } := by
  have hactive : (s.updKeys fun k => { k with useLimit := storedLimit long }).keys.active = none := h
  have hworn : (s.updKeys fun k => { k with useLimit := storedLimit long }).testWear =
      s.updKeys fun k => { k with useLimit := storedLimit long } := by
    rw [State.testWear, hactive]
  have hspent : (s.updKeys fun k => { k with useLimit := storedLimit long }).keys.activeSpent = false := by
    rw [KeyTable.activeSpent, hactive]
  have hwas : s.keys.activeSpent = false := by rw [KeyTable.activeSpent, h]
  simp only [useLimitEffect, hworn, hspent, hwas, Bool.false_eq_true, if_false]
  rfl

/-- The limit stored from a write's two words, clamped into its range (R162, 12.4). -/
theorem storedLimit_longAt (hi lo : DataWord) (more : List DataWord) :
    storedLimit (longAt (hi :: lo :: more)).toNat =
      max 1 (min 1048576 (hi.value.toNat * 65536 + lo.value.toNat)) := by
  have hlong : (longAt (hi :: lo :: more)).toNat = hi.value.toNat * 65536 + lo.value.toNat := by
    have hhi := hi.value.isLt
    have hlo := lo.value.isLt
    rw [longAt, BitVec.toNat_ofNat]
    exact Nat.mod_eq_of_lt (by simp only [wordAt, values, List.map_cons, List.getElem?_cons_zero,
      List.getElem?_cons_succ, Option.getD_some]; omega)
  rw [storedLimit, clamp, hlong]
  rfl

theorem events_without {events more m : BitVec 32} (h : more &&& m = 0) : (events ||| more) &&& m = events &&& m := by
  rw [events_or_and, h]
  exact BitVec.or_zero

/-- Settles O44: every clause read off the state that the new limit makes. -/
theorem useLimitDecidesWearAndSpending : Obligations.UseLimitDecidesWearAndSpending := by
  intro index hdr words s s' happ
  refine ⟨fun hshort => exec_control_short happ rfl hshort, fun hi lo more hwords => ?stored⟩
  subst hwords
  intro limit
  obtain ⟨-, -, -, hstore, -, -, hkeys, -⟩ := happ.fields
  have hlimit : storedLimit (longAt (hi :: lo :: more)).toNat = limit := storedLimit_longAt hi lo more
  cases hactive : s.keys.active with
  | none =>
    have heffect := useLimitEffect_of_inactive (s := s') (longAt (hi :: lo :: more)).toNat (hkeys ▸ hactive)
    rw [hlimit] at heffect
    refine ⟨_, exec_control_enough happ rfl (by simp) heffect rfl, rfl, rfl, fun _ => ⟨?_, rfl, rfl⟩, nofun⟩
    rw [← hkeys]
  | some w =>
    obtain ⟨hframe, hrolled, hkeeps⟩ :=
      useLimitEffect_of_active (s := s') (longAt (hi :: lo :: more)).toNat (w := w) (hkeys ▸ hactive)
    rw [hlimit, hkeys] at hframe hrolled hkeeps
    rw [hstore] at hrolled
    generalize ht : useLimitEffect (longAt (hi :: lo :: more)).toNat s' = t at hframe hrolled hkeeps
    have hheld : (t.port .up).held = (s'.port .up).held := by rw [hframe]; rfl
    refine ⟨t, exec_control_enough happ rfl (by simp) ht hheld, ?limit, ?frame, nofun, fun v hv => ?clauses⟩
    case limit =>
      by_cases hrolls : (limit ≤ w.uses ∧ w.uses < s.keys.useLimit) ∧ s.keys.find .next ≠ none ∧
          s.keys.find .retiring = none
      · exact (hrolled hrolls).pendingRoll_highest.2.2
      · rw [hkeeps hrolls]
        rfl
    case frame =>
      rw [hframe]
    case clauses =>
      cases hv
      intro worn spends rolls bit tested
      have hlp : t.lp.events = s'.lp.events ||| bit (spends ∧ s.keys.find .next = none) .keySpent := by rw [hframe]
      have hup : t.up.events = s'.up.events ||| bit (worn = true ∧ w.wear = false) .keyWear |||
          bit (spends ∧ s.keys.find .next = none) .keySpent |||
          bit (rolls ∧ custodyCount w.epoch s.store.directory = 0) .retired := by
        rw [hframe, hstore]
      have hspendsWorn (h : spends) : worn = true := decide_eq_true (Nat.le_trans (Nat.sub_le ..) h.1)
      have hapart (b : Bool) {e m : Event} (h : e.bit &&& m.bit = 0) : bit b e &&& m.bit = 0 := by
        cases b
        · exact BitVec.zero_and
        · exact h
      refine ⟨fun hwear hworn => ?wears, fun hwear => ?worn, fun hworn => ?quiet, hrolled, hkeeps, hlp, hup,
        fun hroom hbefore => ?ends, fun hspends hnone => ?spent, fun hspends hsome hret => ?waits,
        fun v hspends hnext hret => ?rolls⟩
      case wears =>
        rw [hup, decide_eq_true ⟨hworn, hwear⟩]
        exact events_keep (events_keep (events_gain (by decide)))
      case worn =>
        have hno : ¬ (worn = true ∧ w.wear = false) := fun h => Bool.false_ne_true (h.2.symm.trans hwear)
        rw [hup, events_without (hapart _ (by decide)), events_without (hapart _ (by decide)), decide_eq_false hno]
        exact events_without BitVec.zero_and
      case quiet =>
        have hno : ¬ spends := fun h => Bool.false_ne_true (hworn.symm.trans (hspendsWorn h))
        have hsame : t.up = { s'.up with events := t.up.events } := by rw [hframe]
        rw [hsame, hup, decide_eq_false fun h => Bool.false_ne_true (hworn.symm.trans h.1),
          decide_eq_false fun h => hno h.1, decide_eq_false fun h => hno h.1.1]
        simp only [bit, Bool.false_eq_true, if_false, BitVec.ofNat_eq_ofNat, BitVec.or_zero]
      case ends =>
        have hno : ¬ rolls := fun h => Nat.not_lt.mpr h.1.1 hroom
        rw [hkeeps hno]
        exact if_pos ⟨hroom, hbefore⟩
      case spent =>
        have hbit : decide (spends ∧ s.keys.find .next = none) = true := decide_eq_true ⟨hspends, hnone⟩
        rw [hup, hlp, hbit]
        exact ⟨events_keep (events_gain (by decide)), events_gain (by decide)⟩
      case waits =>
        have hno : ¬ rolls := fun h => hret h.2.2
        rw [hkeeps hno]
        exact (if_neg fun h => Nat.not_lt.mpr hspends.1 h.1).trans (if_pos ⟨hspends, hsome⟩)
      case rolls =>
        intro n
        have hsome : s.keys.find .next ≠ none := by simp [hnext]
        have hroll := hrolled ⟨hspends, hsome, hret⟩
        have htested := KeyTable.tested_active limit hactive
        have hworn' : (w.wear || (decide (limit - limit / 16 ≤ w.uses) && !w.wear)) = true := by
          rw [show decide (limit - limit / 16 ≤ w.uses) = true from hspendsWorn hspends]
          cases w.wear <;> rfl
        rw [hworn'] at htested
        have hret' : (s.keys.tested limit w).find .retiring = none :=
          (KeyTable.tested_find_other limit w (r := .retiring) nofun).trans hret
        refine ⟨?_, hroll.pendingRoll_highest.1, fun hpos => hroll.retiring_of_custody hret' htested hpos, fun hzero => ⟨?_, ?_⟩⟩
        · rw [hroll.active_eq, KeyTable.tested_find_other limit w (r := .next) nofun, hnext]
          rfl
        · exact (hroll.retiring_of_empty htested hzero).1
        · rw [hup, decide_eq_true (p := rolls ∧ _) ⟨⟨hspends, hsome, hret⟩, hzero⟩]
          exact events_gain (by decide)

end Sys2Proof.Machine
end

section
/-! PROOFS. The completion of an OPEN: an opening rejected, delivered, or late. -/

namespace Sys2Proof.Machine

theorem exec_openCompletion_of_job {s : State} {j : OpenJob} (hrun : s.run = .running)
    (hjob : s.engine.job = some (.opening j)) : exec .openCompletion s = .next (openingOutcome j s.endJob) := by
  have hexec : exec .openCompletion s = execOpenCompletion s := rfl
  rw [hexec, execOpenCompletion, whenRunning_of_running hrun, hjob]

/-! ### What the cipher yields (R57, R143) -/

theorem acquirerResult_eq_none {b : Byte} (h : b.toNat = 0 ∨ 3 < b.toNat) : acquirerResult b = none := by
  unfold acquirerResult
  split
  · omega
  · omega
  · omega
  · rfl

section
variable {k : Key} {r : List Byte}

theorem openResponse_of_tag_fails
    (h : ¬ Config.tagPasses (responseKeyFor k r) (slice r 0 32) (slice r 32 16) = true) : openResponse k r = none := by
  unfold openResponse
  exact if_neg h

theorem openResponse_of_undefined
    (h : acquirerResult (((decipher (responseKeyFor k r) (slice r 16 16))[0]?).getD 0) = none) :
    openResponse k r = none := by
  unfold openResponse
  dsimp only
  split
  · rw [h]
    rfl
  · rfl

theorem openResponse_of_defined {res : AcquirerResult}
    (h : Config.tagPasses (responseKeyFor k r) (slice r 0 32) (slice r 32 16) = true)
    (hres : acquirerResult (((decipher (responseKeyFor k r) (slice r 16 16))[0]?).getD 0) = some res) :
    openResponse k r = some ⟨responseNumber r, res, slice (decipher (responseKeyFor k r) (slice r 16 16)) 1 6,
      slice (decipher (responseKeyFor k r) (slice r 16 16)) 7 6⟩ := by
  unfold openResponse
  dsimp only
  rw [if_pos h, hres]
  rfl

end

/-! ### Rejected openings (R142, R143, R145) -/

section
variable {s : State} {j : OpenJob} {k : ResponseKey}

theorem openingOutcome_noKey (h : j.key = none) : openingOutcome j s = s.lastOutcome .noKey j.record := by
  rw [openingOutcome, h]

theorem openingOutcome_staleKey (h : j.key = some k) (hepoch : responseEpoch j.record ≠ k.epoch) :
    openingOutcome j s = s.lastOutcome .staleKey j.record := by
  rw [openingOutcome, h]
  exact if_pos hepoch

theorem openingOutcome_forged (h : j.key = some k) (hepoch : responseEpoch j.record = k.epoch)
    (hopen : openResponse k.key j.record = none) : openingOutcome j s = forgedOutcome j.record s := by
  simp only [openingOutcome, h, hopen, hepoch, ne_eq, not_true_eq_false, if_false]

theorem openingOutcome_valid {resp : Response} {lane : Fin 16} (h : j.key = some k)
    (hepoch : responseEpoch j.record = k.epoch) (hopen : openResponse k.key j.record = some resp)
    (hbound : boundLane j.record s = some lane) : openingOutcome j s = validOutcome lane resp j.record s := by
  simp only [openingOutcome, h, hopen, hepoch, hbound, ne_eq, not_true_eq_false, if_false]

theorem openingOutcome_late {resp : Response} (h : j.key = some k)
    (hepoch : responseEpoch j.record = k.epoch) (hopen : openResponse k.key j.record = some resp)
    (hbound : boundLane j.record s = none) : openingOutcome j s = lateOutcome j.record s := by
  simp only [openingOutcome, h, hopen, hepoch, hbound, ne_eq, not_true_eq_false, if_false]

end

theorem State.testSuspension_suspends {s : State}
    (h : s.cfg.forgedLimit ≠ 0 ∧ s.cfg.forgedLimit ≤ s.intake.forged ∧ s.intake.suspended = false) :
    s.testSuspension = { s with
      intake := { s.intake with suspended := true }, up := s.up.signalled .suspended } := by
  rw [State.testSuspension, if_pos h]
  rfl

theorem State.testSuspension_keeps {s : State}
    (h : ¬ (s.cfg.forgedLimit ≠ 0 ∧ s.cfg.forgedLimit ≤ s.intake.forged ∧ s.intake.suspended = false)) :
    s.testSuspension = s := if_neg h

/-- A FORGED outcome counts and posts FORGED, and the suspension is tested after it (R143, R145). -/
theorem forgedOutcome_eq (r : List Byte) (s : State) : forgedOutcome r s = State.testSuspension { s with
    intake := { s.intake with
      forged := min 255 (s.intake.forged + 1), last := some (.forged, responseNumber r) }
    up := s.up.signalled .forged } := rfl

/-- Settles O30: without a key, under another epoch, and with what the cipher yields nothing for. -/
theorem rejectedOpeningsTouchOnlyTheIntake : Obligations.RejectedOpeningsTouchOnlyTheIntake := by
  intro s j hrun hjob hlength number idle keyOf passes altered count
  rw [exec_openCompletion_of_job hrun hjob]
  refine ⟨fun hkey => ?noKey, fun k hkey hepoch => ?staleKey, fun k hkey hepoch => ?forged⟩
  case noKey =>
    rw [openingOutcome_noKey hkey]
    rfl
  case staleKey =>
    rw [openingOutcome_staleKey hkey hepoch]
    rfl
  case forged =>
    intro result
    refine ⟨_, rfl, fun hrejected => ?_⟩
    have hopen : openResponse k.key j.record = none := by
      rcases hrejected with hfails | haltered | hundefined
      · exact openResponse_of_tag_fails hfails
      · obtain ⟨genuine, hlen, hpasses, hheader, hrest⟩ := haltered
        refine openResponse_of_tag_fails fun hyes => ?_
        exact Bool.false_ne_true ((response_header_changed hlen hlength hheader hrest hpasses).symm.trans hyes)
      · exact openResponse_of_undefined (acquirerResult_eq_none hundefined)
    rw [openingOutcome_forged hkey hepoch hopen, forgedOutcome_eq]
    refine ⟨fun hquiet => State.testSuspension_keeps ?_, fun hlimit hreached hactive =>
      State.testSuspension_suspends ⟨Nat.ne_of_gt hlimit, hreached, hactive⟩⟩
    rintro ⟨hlimit, hreached, hactive⟩
    rcases hquiet with hzero | hbelow | hsuspended
    · exact hlimit hzero
    · exact Nat.not_le.mpr hbelow hreached
    · exact Bool.false_ne_true (hactive.symm.trans hsuspended)

/-! ### Authentic responses (R144, R19) -/

section
variable {r : List Byte} {s : State} {l : Fin 16}

theorem boundLane_of_awaited {a : Awaited} {timer : Nat} (hlane : l.val = responseLane r)
    (hmode : s.lanes[l].mode = .waitResponse a timer) (hnumber : a.number = responseNumber r)
    (hseq : a.laneSeq = responseSeq r) : boundLane r s = some l := by
  have hlt : responseLane r < 16 := hlane ▸ l.isLt
  have hl : laneOf (responseLane r) = l := Fin.ext ((Nat.mod_eq_of_lt hlt).trans hlane.symm)
  rw [boundLane, if_pos hlt]
  simp only [hl, hmode, hnumber, hseq, and_self, if_true]

theorem boundLane_eq_none (h : ∀ (l : Fin 16) (a : Awaited) (timer : Nat), l.val = responseLane r →
    s.lanes[l].mode = .waitResponse a timer → a.number ≠ responseNumber r ∨ a.laneSeq ≠ responseSeq r) :
    boundLane r s = none := by
  unfold boundLane
  split
  · next hlane =>
    split
    · next a timer hmode =>
      refine if_neg fun hboth => ?_
      have hval : (laneOf (responseLane r)).val = responseLane r := Nat.mod_eq_of_lt hlane
      rcases h _ a timer hval hmode with hnumber | hseq
      · exact hnumber hboth.1
      · exact hseq hboth.2
    · rfl
  · rfl

theorem validOutcome_eq (lane : Fin 16) (resp : Response) (r : List Byte) (s : State) :
    validOutcome lane resp r s = State.linkSign { s with
      lanes := s.lanes.set lane { s.lanes[lane] with mode := .answered resp, attention := true }
      store := { s.store with
        directory := updEntry (responseNumber r) (fun e => { e with awaiting := false }) s.store.directory }
      intake := { s.intake with last := some (.valid, responseNumber r) }
      lp := s.lp.signalled .lane } := by
  rw [validOutcome, State.linkSign_eq, State.linkSign_eq]
  rfl

theorem lateOutcome_eq (r : List Byte) (s : State) : lateOutcome r s = State.linkSign { s with
    intake := { s.intake with late := min 255 (s.intake.late + 1), last := some (.late, responseNumber r) }
    up := s.up.signalled .late } := by
  rw [lateOutcome, State.linkSign_eq, State.linkSign_eq]
  rfl

end

theorem acquirerResult_of_code {b : Byte} {res : AcquirerResult}
    (h : b.toNat = match res with | .approved => 1 | .declined => 2 | .refer => 3) : acquirerResult b = some res := by
  cases res with
  | approved => simp only [acquirerResult, h]
  | declined => simp only [acquirerResult, h]
  | refer => simp only [acquirerResult, h]

theorem length_slice {bs : List Byte} {i n : Nat} (h : i + n ≤ bs.length) : (slice bs i n).length = n := by
  simp only [slice, List.length_take, List.length_drop]
  omega

/-- Settles O31: an authentic response with its lane, or without one. -/
theorem authenticResponseIsValidOrLate : Obligations.AuthenticResponseIsValidOrLate := by
  intro s j k hrun hjob hlength hkey hepoch number lane seq key plain idle
  rw [exec_openCompletion_of_job hrun hjob]
  refine ⟨_, rfl, ?length, fun wrapping => responseKeyFor_ne_record k.key wrapping j.record, fun res htag hres => ?_⟩
  case length => rw [length_decipher, length_slice (by omega)]
  have hopen : openResponse k.key j.record = some ⟨number, res, slice plain 1 6, slice plain 7 6⟩ :=
    openResponse_of_defined htag (acquirerResult_of_code hres)
  refine ⟨fun l a timer hlane hmode hnumber hseq => ?valid, fun hnone => ?late⟩
  case valid =>
    have hbound : boundLane j.record s.endJob = some l := boundLane_of_awaited hlane hmode hnumber hseq
    rw [openingOutcome_valid hkey hepoch hopen hbound, validOutcome_eq]
    rfl
  case late =>
    have hbound : boundLane j.record s.endJob = none := boundLane_eq_none hnone
    rw [openingOutcome_late hkey hepoch hopen hbound, lateOutcome_eq]
    rfl

end Sys2Proof.Machine
end

section
/-! PROOFS. The completion of a REWRAP: the target rewritten under the new epoch, the key table, and the held reads. -/

namespace Sys2Proof.Machine

/-! ### The store's part (R75, R56) -/

theorem exec_rewrapCompletion_of_job {s : State} {j : RewrapJob} (hrun : s.run = .running)
    (hjob : s.engine.job = some (.rewrap j)) : exec .rewrapCompletion s = .next (completeRewrap j s) := by
  have hexec : exec .rewrapCompletion s = execRewrapCompletion s := rfl
  rw [hexec, execRewrapCompletion, whenRunning_of_running hrun, hjob]

section
variable {st : Store} {j : RewrapJob} {e : Entry} {p : Prior}

theorem Store.rewrapped_of_rewrapping (hfound : findEntry j.target st.directory = some e)
    (hstate : e.state = .rewrapping p) : st.rewrapped j =
      { st with
        directory := Machine.updEntry j.target (fun x => { x with state := p.state, epoch := j.epoch }) st.directory
        ring := Memory.writeRun st.ring (32 * e.firstSlot) (j.sealed e) } := by
  unfold Store.rewrapped
  split
  · next e' he' =>
    cases he'.symm.trans hfound
    split
    · next p' hp' =>
      cases hp'.symm.trans hstate
      rfl
    · next hother => exact absurd hstate (hother p)
  · next hnone => cases hnone.symm.trans hfound

theorem Store.rewrapped_of_other
    (h : ∀ (e : Entry) (p : Prior), findEntry j.target st.directory = some e → e.state ≠ .rewrapping p) :
    st.rewrapped j = st := by
  unfold Store.rewrapped
  split
  · next e he =>
    split
    · next p hp => exact absurd hp (h e p he)
    · rfl
  · rfl

end

/-! ### What the rewrapped record keeps (R56) -/

theorem getElem?_slice {bs : List Byte} {i n k : Nat} (h : k < n) : (slice bs i n)[k]? = bs[i + k]? := by
  rw [slice, List.getElem?_take_of_lt h, List.getElem?_drop]

/-- A record of 32 + Lc + Lb + 16 bytes that fits its slots carries what its old content carried. -/
theorem RewrapJob.sealed_rewrapped {j : RewrapJob} {e : Entry} (hlength : j.content.length = 32 * e.slots)
    (hfits : 48 + fieldAt j.content 30 1 + fieldAt j.content 31 1 ≤ 32 * e.slots) :
    Rewrapped (Config.deriveKey j.oldKey .record e.number e.lane e.laneSeq)
      (Config.deriveKey j.newKey .record e.number e.lane e.laneSeq) j.epoch j.content (j.sealed e) := by
  let lc := fieldAt j.content 30 1
  let lb := fieldAt j.content 31 1
  let oldKey := Config.deriveKey j.oldKey .record e.number e.lane e.laneSeq
  let newKey := Config.deriveKey j.newKey .record e.number e.lane e.laneSeq
  let plain := decipher oldKey (slice j.content (32 + lc) lb)
  have hfirst : (slice j.content 0 12).length = 12 := length_slice (by omega)
  have hthird : (slice j.content 14 18).length = 18 := length_slice (by omega)
  have hclear : (slice j.content 32 lc).length = lc := length_slice (by omega)
  have hbody : (slice j.content (32 + lc) lb).length = lb := length_slice (by omega)
  have hplain : plain.length = lb := by rw [length_decipher, hbody]
  have hcovered := sealRecord_eq newKey (slice j.content 0 12 ++ beBytes 2 j.epoch ++ slice j.content 14 18)
    (slice j.content 32 lc) plain e.slots (by
      simp only [List.length_append, hfirst, hthird, hclear, hplain, length_beBytes]
      omega)
  simp only [List.append_assoc] at hcovered
  obtain ⟨rest, hsealed⟩ : ∃ rest, j.sealed e = slice j.content 0 12 ++ (beBytes 2 j.epoch ++
      (slice j.content 14 18 ++ (slice j.content 32 lc ++ (encipher newKey plain ++ rest)))) := by
    refine ⟨_, Eq.trans ?_ hcovered⟩
    simp only [RewrapJob.sealed, List.append_assoc]
    rfl
  refine ⟨?length, ?epoch, fun i hi h12 h13 => ?kept, plain, ?old, ?new⟩
  case length => rw [hlength]; exact length_sealRecord ..
  case epoch =>
    rw [hsealed]
    exact slice_append _ _ _ hfirst (length_beBytes ..)
  case kept =>
    rw [hsealed]
    rcases Nat.lt_or_ge i 12 with hlow | hhigh
    · rw [List.getElem?_append_left (by omega), getElem?_slice hlow, Nat.zero_add]
    · rw [List.getElem?_append_right (by omega), List.getElem?_append_right (by rw [length_beBytes]; omega), hfirst,
        length_beBytes]
      rcases Nat.lt_or_ge i 32 with hhead | hbody
      · rw [List.getElem?_append_left (by omega), getElem?_slice (by omega), show 14 + (i - 12 - 2) = i by omega]
      · rw [List.getElem?_append_right (by omega), List.getElem?_append_left (by omega), getElem?_slice (by omega),
          hthird, show 32 + (i - 12 - 2 - 18) = i by omega]
  case old => rw [encipher_decipher]
  case new =>
    have hbefore : (slice j.content 0 12 ++ beBytes 2 j.epoch ++ slice j.content 14 18 ++ slice j.content 32 lc).length =
        32 + lc := by
      simp only [List.length_append, hfirst, hthird, hclear, length_beBytes]
    have hnew := slice_append _ (encipher newKey plain) rest hbefore (by rw [length_encipher, hplain])
    simp only [List.append_assoc] at hnew
    rw [hsealed]
    exact hnew

/-! ### The key table's re-evaluation and the held reads, each alone -/

section
variable {s : State}

theorem State.settleRetiring_other (s : State) (announce : Bool) : (s.settleRetiring announce).lp = s.lp ∧
    (s.settleRetiring announce).up = { s.up with events := (s.settleRetiring announce).up.events } := by
  obtain ⟨k, v, h⟩ := s.settleRetiring_eq announce
  rw [h]
  exact ⟨rfl, rfl⟩

theorem State.reevaluate_of_no_read {p : PortId} (h : ∀ r limit, (s.port p).held ≠ some ⟨.read r, limit, true⟩) :
    s.reevaluate p = s := by
  unfold State.reevaluate
  split
  · next r limit hr => exact absurd hr (h r limit)
  · rfl

theorem State.reevaluate_offer {index : Word} {hdr : Header} {limit : Nat}
    (h : s.up.held = some ⟨.read ⟨.offer, index, hdr⟩, limit, true⟩) :
    s.reevaluate .up = (s.setHeld .up none).readOffer ⟨.offer, index, hdr⟩ limit := by
  have hport : (s.port .up).held = some ⟨.read ⟨.offer, index, hdr⟩, limit, true⟩ := h
  simp only [State.reevaluate, hport]
  rfl

theorem State.reevaluate_spill {index : Word} {hdr : Header} {limit : Nat}
    (h : s.lp.held = some ⟨.read ⟨.spill, index, hdr⟩, limit, true⟩) :
    s.reevaluate .lp = (s.setHeld .lp none).readSpill ⟨.spill, index, hdr⟩ limit := by
  have hport : (s.port .lp).held = some ⟨.read ⟨.spill, index, hdr⟩, limit, true⟩ := h
  simp only [State.reevaluate, hport]
  rfl

theorem State.readOffer_lp (s : State) (r : ReadRequest) (limit : Nat) : (s.readOffer r limit).lp = s.lp := by
  unfold State.readOffer
  split
  · rfl
  split
  · rfl
  split <;> rfl

theorem State.readSpill_up (s : State) (r : ReadRequest) (limit : Nat) : (s.readSpill r limit).up = s.up := by
  unfold State.readSpill
  split
  · rfl
  split
  · rfl
  split
  · rfl
  split
  · rfl
  split <;> rfl

end

/-- With no read held at the store only the key table is left to do, whatever the order (R75). -/
theorem follows_without_reads {u : State} (h : ∀ p r limit, (u.port p).held ≠ some ⟨.read r, limit, true⟩) (n : Fin 6) :
    (followOrder n).foldl State.follow u = u.settleRetiring true := by
  have hbefore (p : PortId) : u.reevaluate p = u := State.reevaluate_of_no_read (h p)
  have hafter (p : PortId) : (u.settleRetiring true).reevaluate p = u.settleRetiring true :=
    State.reevaluate_of_no_read fun r limit => by rw [State.settleRetiring_held]; exact h p r limit
  match n with
  | 0 | 1 | 2 | 3 | 4 | 5 => simp only [followOrder, List.foldl_cons, List.foldl_nil, State.follow, hbefore, hafter]

/-- The state of a REWRAP completion before the actions in free order: the store's part done, the engine IDLE. -/
def State.rewrappedBy (s : State) (j : RewrapJob) : State :=
  { s with store := s.store.rewrapped j, engine := { s.engine with job := none }, choices := s.choices + 1 }

theorem State.rewrappedBy_port (s : State) (j : RewrapJob) (p : PortId) : (s.rewrappedBy j).port p = s.port p := by
  cases p <;> rfl

theorem completeRewrap_eq (j : RewrapJob) (s : State) :
    completeRewrap j s = (followOrder (Config.rewrapOrder s.choices)).foldl State.follow (s.rewrappedBy j) := rfl

theorem Store.rewrapped_fields (st : Store) (j : RewrapJob) :
    st.rewrapped j = { st with directory := (st.rewrapped j).directory, ring := (st.rewrapped j).ring } := by
  unfold Store.rewrapped
  split
  · split <;> rfl
  · rfl

/-- Settles O28: the store's part, and then the key table alone. -/
theorem rewrapCompletionRestoresTarget : Obligations.RewrapCompletionRestoresTarget := by
  intro s j hrun hjob hquiet
  rw [exec_rewrapCompletion_of_job hrun hjob, completeRewrap_eq,
    follows_without_reads (u := s.rewrappedBy j) (fun p r limit => by rw [State.rewrappedBy_port]; exact hquiet p r limit)]
  obtain ⟨hresettled, hretires, hkeeps⟩ := (s.rewrappedBy j).settleRetiring_resettled true
  obtain ⟨k, v, hsettle⟩ := (s.rewrappedBy j).settleRetiring_eq true
  have hstore : ((s.rewrappedBy j).settleRetiring true).store = s.store.rewrapped j := State.settleRetiring_store ..
  refine ⟨_, rfl, ?frame, fun e p hfound hstate hslots hwf => ⟨?directory, ?ring, fun hlength hfits => ?record⟩,
    fun hother => hstore.trans (Store.rewrapped_of_other hother), ?resettled, fun h => ?retires, fun h => ?keeps⟩
  case frame =>
    rw [hstore, ← Store.rewrapped_fields, hsettle]
    rfl
  case directory => rw [hstore, Store.rewrapped_of_rewrapping hfound hstate]
  case ring =>
    rw [hstore, Store.rewrapped_of_rewrapping hfound hstate]
    exact Memory.holds_sealed hwf _ (length_sealRecord ..) hslots
  case record => exact RewrapJob.sealed_rewrapped hlength hfits
  case resettled => rw [hstore]; exact hresettled
  case retires =>
    rw [hstore] at h
    rw [hretires h]
    rfl
  case keeps =>
    rw [hstore] at h
    rw [hkeeps h]
    rfl

/-! ### The held reads in every order (R92, R110) -/

section
variable {u : State} {index index' : Word} {hdr hdr' : Header} {limit limit' : Nat}

/-- With an offer read held at the store and no other, it is answered before or after the key table's re-evaluation. -/
theorem follows_with_offer (hup : u.up.held = some ⟨.read ⟨.offer, index, hdr⟩, limit, true⟩)
    (hlp : ∀ r l, u.lp.held ≠ some ⟨.read r, l, true⟩) (n : Fin 6) :
    (followOrder n).foldl State.follow u =
        ((u.settleRetiring true).setHeld .up none).readOffer ⟨.offer, index, hdr⟩ limit ∨
      (followOrder n).foldl State.follow u =
        ((u.setHeld .up none).readOffer ⟨.offer, index, hdr⟩ limit).settleRetiring true := by
  have hkeep (x : State) (h : x.lp.held = u.lp.held) : x.reevaluate .lp = x :=
    State.reevaluate_of_no_read (p := .lp) fun r l => by rw [show (x.port .lp).held = u.lp.held from h]; exact hlp r l
  obtain ⟨hlpSettled, hupSettled⟩ := u.settleRetiring_other true
  have hoffer := State.reevaluate_offer hup
  have hofferSettled : (u.settleRetiring true).reevaluate .up = _ :=
    State.reevaluate_offer (index := index) (hdr := hdr) (limit := limit) (by rw [hupSettled]; exact hup)
  have hfirst := hkeep u rfl
  have hsettled := hkeep (u.settleRetiring true) (by rw [hlpSettled])
  have hanswered := hkeep ((u.setHeld .up none).readOffer ⟨.offer, index, hdr⟩ limit) (by
    rw [State.readOffer_lp]
    rfl)
  have hboth := hkeep (((u.settleRetiring true).setHeld .up none).readOffer ⟨.offer, index, hdr⟩ limit) (by
    rw [State.readOffer_lp, State.setHeld_eq]
    exact congrArg Port.held hlpSettled)
  have hlast := hkeep (((u.setHeld .up none).readOffer ⟨.offer, index, hdr⟩ limit).settleRetiring true) (by
    rw [(State.settleRetiring_other _ true).1, State.readOffer_lp]
    rfl)
  match n with
  | 0 | 1 | 2 | 3 | 4 | 5 =>
    simp only [followOrder, List.foldl_cons, List.foldl_nil, State.follow, hfirst, hsettled, hanswered, hboth, hlast,
      hoffer, hofferSettled, true_or, or_true]

/-- With a spill read held at the store and no other, likewise. -/
theorem follows_with_spill (hlp : u.lp.held = some ⟨.read ⟨.spill, index, hdr⟩, limit, true⟩)
    (hup : ∀ r l, u.up.held ≠ some ⟨.read r, l, true⟩) (n : Fin 6) :
    (followOrder n).foldl State.follow u =
        ((u.settleRetiring true).setHeld .lp none).readSpill ⟨.spill, index, hdr⟩ limit ∨
      (followOrder n).foldl State.follow u =
        ((u.setHeld .lp none).readSpill ⟨.spill, index, hdr⟩ limit).settleRetiring true := by
  have hkeep (x : State) (h : x.up.held = u.up.held) : x.reevaluate .up = x :=
    State.reevaluate_of_no_read (p := .up) fun r l => by rw [show (x.port .up).held = u.up.held from h]; exact hup r l
  have hupSettled (x : State) : (x.settleRetiring true).up.held = x.up.held := by
    rw [(x.settleRetiring_other true).2]
  have hspill := State.reevaluate_spill hlp
  have hspillSettled : (u.settleRetiring true).reevaluate .lp = _ :=
    State.reevaluate_spill (index := index) (hdr := hdr) (limit := limit)
      (by rw [(u.settleRetiring_other true).1]; exact hlp)
  have hfirst := hkeep u rfl
  have hsettled := hkeep (u.settleRetiring true) (hupSettled u)
  have hanswered := hkeep ((u.setHeld .lp none).readSpill ⟨.spill, index, hdr⟩ limit) (by
    rw [State.readSpill_up]
    rfl)
  have hboth := hkeep (((u.settleRetiring true).setHeld .lp none).readSpill ⟨.spill, index, hdr⟩ limit) (by
    rw [State.readSpill_up, State.setHeld_eq]
    exact hupSettled u)
  have hlast := hkeep (((u.setHeld .lp none).readSpill ⟨.spill, index, hdr⟩ limit).settleRetiring true) (by
    rw [hupSettled, State.readSpill_up]
    rfl)
  match n with
  | 0 | 1 | 2 | 3 | 4 | 5 =>
    simp only [followOrder, List.foldl_cons, List.foldl_nil, State.follow, hfirst, hsettled, hanswered, hboth, hlast,
      hspill, hspillSettled, true_or, or_true]

/-- What a spill read held at the store leaves of store, reservation and port is what it leaves when it is evaluated on a
state with the completed store, whatever the order. -/
theorem follows_with_spill_answer (hlp : u.lp.held = some ⟨.read ⟨.spill, index, hdr⟩, limit, true⟩)
    (hup : ∀ r l, u.up.held ≠ some ⟨.read r, l, true⟩) (n : Fin 6) :
    ∃ y : State, y.store = u.store ∧ y.cfg = u.cfg ∧ y.spill = u.spill ∧
      y.lp = { u.lp with held := none, sending := false } ∧
      let t := (followOrder n).foldl State.follow u
      let z := y.readSpill ⟨.spill, index, hdr⟩ limit
      t.store = z.store ∧ t.spill = z.spill ∧ t.lp = z.lp := by
  rcases follows_with_spill hlp hup n with h | h
  · refine ⟨(u.settleRetiring true).setHeld .lp none, State.settleRetiring_store .., State.settleRetiring_cfg ..,
      State.settleRetiring_spill .., ?_, ?_⟩
    · rw [State.setHeld_eq]
      simp only [State.updPort, (u.settleRetiring_other true).1]
    · rw [h]
      exact ⟨rfl, rfl, rfl⟩
  · refine ⟨u.setHeld .lp none, rfl, rfl, rfl, rfl, ?_⟩
    rw [h]
    exact ⟨State.settleRetiring_store .., State.settleRetiring_spill .., (State.settleRetiring_other _ true).1⟩

/-- Likewise for an offer read, with its answer. -/
theorem follows_with_offer_answer (hup : u.up.held = some ⟨.read ⟨.offer, index, hdr⟩, limit, true⟩)
    (hlp : ∀ r l, u.lp.held ≠ some ⟨.read r, l, true⟩) (n : Fin 6) :
    ∃ y : State, y.store = u.store ∧ y.cfg = u.cfg ∧ y.up.held = none ∧
      let t := (followOrder n).foldl State.follow u
      let z := y.readOffer ⟨.offer, index, hdr⟩ limit
      t.store = z.store ∧ t.up.held = z.up.held ∧ t.up.answer = z.up.answer := by
  rcases follows_with_offer hup hlp n with h | h
  · refine ⟨(u.settleRetiring true).setHeld .up none, State.settleRetiring_store .., State.settleRetiring_cfg .., ?_, ?_⟩
    · rw [State.setHeld_eq]
      rfl
    · rw [h]
      exact ⟨rfl, rfl, rfl⟩
  · refine ⟨u.setHeld .up none, rfl, rfl, rfl, ?_⟩
    rw [h]
    refine ⟨State.settleRetiring_store .., ?_, ?_⟩ <;> rw [(State.settleRetiring_other _ true).2]

end

/-! ### Two held reads (R92) -/

section
variable {u x : State} {answer : Answer}

/-- The offer read has been answered, and the lane port's hold is as it was. -/
def State.OfferDone (x u : State) (answer : Answer) : Prop := x.up.answer = some answer ∧ x.lp.held = u.lp.held

/-- The spill read has been answered, and the uplink port's hold is as it was. -/
def State.SpillDone (x u : State) (answer : Answer) : Prop := x.lp.answer = some answer ∧ x.up.held = u.up.held

theorem State.OfferDone.settle (h : x.OfferDone u answer) : (x.settleRetiring true).OfferDone u answer := by
  obtain ⟨hlp, hup⟩ := x.settleRetiring_other true
  rw [State.OfferDone, hlp, hup]
  exact h

theorem State.SpillDone.settle (h : x.SpillDone u answer) : (x.settleRetiring true).SpillDone u answer := by
  obtain ⟨hlp, hup⟩ := x.settleRetiring_other true
  rw [State.SpillDone, hlp, hup]
  exact h

theorem State.OfferDone.spill {index : Word} {hdr : Header} {limit : Nat}
    (hheld : u.lp.held = some ⟨.read ⟨.spill, index, hdr⟩, limit, true⟩) (h : x.OfferDone u answer) :
    (x.reevaluate .lp).up.answer = some answer := by
  obtain ⟨hanswer, hlp⟩ := h
  rw [State.reevaluate_spill (hlp.trans hheld), State.readSpill_up]
  exact hanswer

theorem State.SpillDone.offer {index : Word} {hdr : Header} {limit : Nat}
    (hheld : u.up.held = some ⟨.read ⟨.offer, index, hdr⟩, limit, true⟩) (h : x.SpillDone u answer) :
    (x.reevaluate .up).lp.answer = some answer := by
  obtain ⟨hanswer, hup⟩ := h
  rw [State.reevaluate_offer (hup.trans hheld), State.readOffer_lp]
  exact hanswer

end

/-- Whichever of the two reads comes first is answered, and the actions after it leave its answer. -/
theorem follows_with_both {u : State} {index index' : Word} {hdr hdr' : Header} {limit limit' : Nat} {answer answer' : Answer}
    (hup : u.up.held = some ⟨.read ⟨.offer, index, hdr⟩, limit, true⟩)
    (hlp : u.lp.held = some ⟨.read ⟨.spill, index', hdr'⟩, limit', true⟩)
    (hoffer : ∀ x : State, x = u ∨ x = u.settleRetiring true → (x.reevaluate .up).OfferDone u answer)
    (hspill : ∀ x : State, x = u ∨ x = u.settleRetiring true → (x.reevaluate .lp).SpillDone u answer') (n : Fin 6) :
    let t := (followOrder n).foldl State.follow u
    t.up.answer = some answer ∨ t.lp.answer = some answer' := by
  have hsettle (x : State) : (x.settleRetiring true).up.answer = x.up.answer ∧
      (x.settleRetiring true).lp.answer = x.lp.answer := by
    obtain ⟨hlp, hup⟩ := x.settleRetiring_other true
    rw [hlp, hup]
    exact ⟨rfl, rfl⟩
  match n with
  | 0 => exact .inl ((hoffer _ (.inr rfl)).spill hlp)
  | 1 => exact .inr ((hspill _ (.inr rfl)).offer hup)
  | 2 => exact .inl ((hoffer _ (.inl rfl)).settle.spill hlp)
  | 3 => exact .inr ((hspill _ (.inl rfl)).settle.offer hup)
  | 4 => exact .inl ((hsettle _).1.trans ((hoffer _ (.inl rfl)).spill hlp))
  | 5 => exact .inr ((hsettle _).2.trans ((hspill _ (.inl rfl)).offer hup))

/-- Settles O29: each read on the completed store, and of the two the one that comes first. -/
theorem heldReadsAreAnsweredAtRewrapCompletion : Obligations.HeldReadsAreAnsweredAtRewrapCompletion := by
  intro s j e p hrun hjob hfound hstate d above spillable
  rw [exec_rewrapCompletion_of_job hrun hjob, completeRewrap_eq]
  have hd : (s.rewrappedBy j).store.directory = d := by
    rw [State.rewrappedBy, Store.rewrapped_of_rewrapping hfound hstate]
  refine ⟨fun c index hdr limit hup hlp hroom hcandidate hheld => ?offer, fun index hdr limit hlp hup => ?spill,
    fun older younger c index index' hdr hdr' limit limit' hup hlp hroom hcandidate hheld habove hfree hsplit hnone
      hlist => ?both⟩
  case offer =>
    obtain ⟨y, hstore, hcfg, hnone, htstore, htheld, htanswer⟩ :=
      follows_with_offer_answer (u := s.rewrappedBy j) hup hlp (Config.rewrapOrder s.choices)
    have hyd : y.store.directory = d := by rw [hstore, hd]
    have hread := State.readOffer_held (s := y) ⟨.offer, index, hdr⟩ limit (hyd ▸ hroom) (hyd ▸ hcandidate) hheld
    rw [hread] at htstore htheld htanswer
    refine ⟨_, rfl, htheld.trans hnone, htanswer, ?_⟩
    rw [htstore, hcfg]
    exact congrArg (updEntry _ _) hyd
  case spill =>
    obtain ⟨y, hstore, hcfg, hspill, hylp, htstore, htspill, htlp⟩ :=
      follows_with_spill_answer (u := s.rewrappedBy j) hlp hup (Config.rewrapOrder s.choices)
    have hyd : y.store.directory = d := by rw [hstore, hd]
    have habove : (y.cfg.lowSlot < y.store.slotsUsed ∨ y.cfg.lowEntry < y.store.entriesUsed) ↔ above := by
      rw [hcfg, Store.slotsUsed, Store.entriesUsed, hyd]
      rfl
    generalize (followOrder (Config.rewrapOrder s.choices)).foldl State.follow (s.rewrappedBy j) = t at htstore htspill htlp ⊢
    have hport {f : Port → Port} (h : y.readSpill ⟨.spill, index, hdr⟩ limit = y.updPort .lp f) :
        t.store.directory = d ∧ t.spill = s.spill ∧ t.lp = f { s.lp with held := none, sending := false } := by
      rw [h] at htstore htspill htlp
      refine ⟨?_, htspill.trans hspill, htlp.trans (congrArg f hylp)⟩
      rw [htstore]
      exact hyd
    refine ⟨t, rfl, ?_⟩
    intro answered
    refine ⟨fun hbelow => hport
        (f := fun q => (q.refused (refusal spillWindow index hdr .denied)).answered .denied hdr []) ?denied,
      fun hyes hbusy => hport (f := fun q => q.answered .busy hdr []) ?busy,
      fun hyes hfree older younger c hsplit hnone hnumber => ⟨fun hrewrap => ?rewrapping,
        fun hsettled hcharge hlist => hport (f := fun q => q.answered .empty hdr [2]) ?full,
        fun hsettled hlist => ?reserved⟩⟩
    case denied => rw [State.readSpill_denied _ _ (mt habove.mp hbelow), State.denyRead_eq]
    case busy => exact State.readSpill_busy _ _ (habove.mpr hyes) (hyd ▸ hbusy)
    all_goals
      have hcandidate (hc : spillable c) : spillCandidate y.store.directory = some c :=
        find?_split (hyd.trans hsplit) (fun x hx => Entry.not_spillable (hnone x hx)) (c.spillable_iff.mpr hc)
      have hread (hc : spillable c) := State.readSpill_candidate ⟨.spill, index, hdr⟩ limit (habove.mpr hyes)
        (hyd ▸ hfree) (hcandidate hc)
    case rewrapping =>
      have hheld := hread (.inr (.inr hrewrap))
      rw [if_pos ((EntryState.isRewrapping_iff _).mpr hrewrap), State.holdAtStore_eq] at hheld
      obtain ⟨hdirectory, hsame, hlpNow⟩ := hport hheld
      exact ⟨hdirectory, hsame, by rw [hlpNow, ← hlp]⟩
    case full =>
      have hsettled' : spillable c := hsettled.elim .inl fun h => .inr (.inl h)
      rw [hread hsettled', if_neg (by rw [EntryState.not_rewrapping_of_settled hsettled]; decide),
        if_pos ⟨hcharge, hspill ▸ hlist⟩]
      rfl
    case reserved =>
      have hsettled' : spillable c := hsettled.elim .inl fun h => .inr (.inl h)
      have hreserve := hread hsettled'
      rw [if_neg (by rw [EntryState.not_rewrapping_of_settled hsettled]; decide),
        if_neg (by rw [show y.spill = s.spill from hspill]; exact fun h => by omega)] at hreserve
      rw [hreserve] at htstore htspill htlp
      refine ⟨?_, htspill.trans ?_, htlp.trans (congrArg (fun q => q.answered .ok hdr (descriptorWords c)) hylp)⟩
      · rw [htstore, ← updEntry_split (f := fun x => { x with state := .spilling }) hnumber rfl, ← hsplit]
        exact congrArg (updEntry _ _) hyd
      · rw [← show y.spill = s.spill from hspill]
        rfl
  case both =>
    let u := s.rewrappedBy j
    have hfields (x : State) (hx : x = u ∨ x = u.settleRetiring true) : x.store.directory = d ∧ x.cfg = s.cfg ∧
        x.spill = s.spill ∧ x.up.held = s.up.held ∧ x.lp.held = s.lp.held := by
      rcases hx with rfl | rfl
      · exact ⟨hd, rfl, rfl, rfl, rfl⟩
      · obtain ⟨hlpSettled, hupSettled⟩ := u.settleRetiring_other true
        rw [State.settleRetiring_store, State.settleRetiring_cfg, State.settleRetiring_spill, hlpSettled, hupSettled]
        exact ⟨hd, rfl, rfl, rfl, rfl⟩
    refine ⟨_, rfl, follows_with_both (u := u) hup hlp (fun x hx => ?offered) (fun x hx => ?reserved) _⟩
    case offered =>
      obtain ⟨hxd, hxcfg, -, hxup, hxlp⟩ := hfields x hx
      have hread := State.readOffer_held (s := x.setHeld .up none) ⟨.offer, index, hdr⟩ limit (hxd ▸ hroom)
        (hxd ▸ hcandidate) hheld
      rw [State.reevaluate_offer (hxup.trans hup), hread]
      exact ⟨rfl, hxlp⟩
    case reserved =>
      obtain ⟨hxd, hxcfg, hxspill, hxup, hxlp⟩ := hfields x hx
      have hxabove : x.cfg.lowSlot < x.store.slotsUsed ∨ x.cfg.lowEntry < x.store.entriesUsed := by
        rw [hxcfg, Store.slotsUsed, Store.entriesUsed, hxd]
        exact habove
      have hcandidate' : spillCandidate x.store.directory = some c :=
        find?_split (hxd.trans hsplit) (fun y hy => Entry.not_spillable (hnone y hy)) (c.spillable_iff.mpr (.inl hheld))
      have hread := State.readSpill_candidate (s := x.setHeld .lp none) ⟨.spill, index', hdr'⟩ limit' hxabove
        (hxd ▸ hfree) hcandidate'
      rw [if_neg (by rw [hheld]; decide), if_neg (by
        rw [show (x.setHeld .lp none).spill = s.spill from hxspill]
        exact fun h => by omega)] at hread
      rw [State.reevaluate_spill (hxlp.trans hlp), hread]
      exact ⟨rfl, hxup⟩

end Sys2Proof.Machine
end

section
/-! PROOFS. The key line: the receiver on frames that are not executed, the key loads, and the shop's settings. -/

namespace Sys2Proof.Machine

/-! ### The receiver (R169, R170) -/

/-- While a reply is sent, the bytes received are dropped. -/
theorem State.receiveAll_of_replying {s : State} {frame : List Byte} (h : s.keyLine = .replying frame)
    (bytes : List Byte) : s.receiveAll bytes = s := by
  induction bytes with
  | nil => rfl
  | cons b bytes ih =>
    have hdropped : s.receive b = s := by
      unfold State.receive
      rw [h]
    rw [State.receiveAll_cons, hdropped, ih]

/-- The command byte of a frame is stored, whatever it is. -/
theorem State.receive_command {s : State} (h : s.keyLine = .receiving []) (command : Byte) :
    s.receive command = s.setKeyLine (.receiving [command]) := by
  unfold State.receive
  rw [h]
  rfl

/-- A length above 64 is answered at once; what follows it of the frame is dropped. -/
theorem State.receiveAll_of_long {s : State} (h : s.keyLine = .receiving []) (command : Byte) {length : Byte}
    (hlong : 64 < length.toNat) (more : List Byte) :
    s.receiveAll (command :: length :: more) = s.reply command .badFrame [] := by
  have hlength : (s.setKeyLine (.receiving [command])).receive length = s.reply command .badFrame [] := by
    simp only [State.receive, State.setKeyLine_keyLine, List.cons_append, List.nil_append, afterByte, maxPayload,
      if_pos hlong, State.reply_setKeyLine]
  rw [State.receiveAll_cons, State.receive_command h, State.receiveAll_cons, hlength]
  exact State.receiveAll_of_replying rfl more

/-- A whole frame whose CRC is not that of its bytes is answered BAD_FRAME. -/
theorem State.receiveAll_of_badCrc {s : State} (h : s.keyLine = .receiving []) (command : Byte) {length high low : Byte}
    {payload : List Byte} (hshort : length.toNat ≤ 64) (hlength : payload.length = length.toNat)
    (hcrc : bytesOfWord (crc (command :: length :: payload)) ≠ [high, low]) :
    s.receiveAll (command :: length :: payload ++ [high, low]) = s.reply command .badFrame [] := by
  have hmax : ¬ maxPayload < length.toNat := Nat.not_lt.mpr hshort
  have hstart : (s.setKeyLine (.receiving [command])).receive length =
      s.setKeyLine (.receiving [command, length]) := by
    have hpartial : ¬ [command, length].length = 4 + length.toNat := by simp; omega
    simp only [State.receive, State.setKeyLine_keyLine, List.cons_append, List.nil_append, afterByte, if_neg hmax,
      if_neg hpartial, State.setKeyLine_setKeyLine]
  have hstored := State.receiveAll_stores command length hshort (payload ++ [high]) []
    (s.setKeyLine (.receiving [command, length])) rfl (by simp; omega)
  have hsplit : command :: length :: payload ++ [high, low] =
      command :: length :: ((payload ++ [high]) ++ [low]) := by simp
  have hend : (command :: length :: (payload ++ [high, low])).length = 4 + length.toNat := by simp; omega
  have htake : (command :: length :: (payload ++ [high, low])).take (2 + length.toNat) =
      command :: length :: payload := by
    rw [← hlength, Nat.add_comm]
    simp
  have hslice : slice (command :: length :: (payload ++ [high, low])) (2 + length.toNat) 2 = [high, low] := by
    rw [← hlength, slice, Nat.add_comm]
    simp
  rw [hsplit, State.receiveAll_cons, State.receive_command h, State.receiveAll_cons, hstart, State.receiveAll_append,
    hstored]
  simp only [State.receiveAll, List.foldl_cons, List.foldl_nil, State.receive, State.setKeyLine_keyLine,
    List.nil_append, List.cons_append, List.append_assoc, afterByte, if_neg hmax, if_pos hend, endFrame, htake, hslice,
    if_neg hcrc, State.setKeyLine_setKeyLine, State.reply_setKeyLine]

/-- A frame whose CRC agrees is executed. -/
theorem State.receiveAll_of_crc {s : State} (h : s.keyLine = .receiving []) (command : Byte) {length high low : Byte}
    {payload : List Byte} (hshort : length.toNat ≤ 64) (hlength : payload.length = length.toNat)
    (hcrc : bytesOfWord (crc (command :: length :: payload)) = [high, low]) :
    s.receiveAll (command :: length :: payload ++ [high, low]) =
      executeFrame command payload (s.setKeyLine .hunt) := by
  have hlengthByte : BitVec.ofNat 8 payload.length = length := by
    rw [hlength]
    exact BitVec.eq_of_toNat_eq (by simp)
  have hframe : command :: length :: payload ++ [high, low] = frameTail command payload := by
    rw [frameTail, hlengthByte, hcrc]
  rw [hframe]
  exact State.receiveAll_frameTail h command (hlength ▸ hshort)

/-- Settles O49. A frame that is not executed ends at its length byte or at its last CRC byte. -/
theorem keyLineAnswersEveryCompleteFrame : Obligations.KeyLineAnswersEveryCompleteFrame := by
  unfold Obligations.KeyLineAnswersEveryCompleteFrame
  intro s hrun
  have hsync : exec .syncByte s = .next (s.receive syncValue) :=
    congrArg Host.Outcome.next (whenRunning_of_running hrun _)
  have hgap : exec .keyLineGap s = .next s.discardPartial :=
    congrArg Host.Outcome.next (whenRunning_of_running hrun _)
  have hfault : exec .keyLineByteFault s = .next s.discardPartial :=
    congrArg Host.Outcome.next (whenRunning_of_running hrun _)
  have hframe : ∀ bytes, exec (.badFrame bytes) s = .next (s.receiveAll bytes) := fun bytes =>
    congrArg Host.Outcome.next (whenRunning_of_running hrun _)
  refine ⟨fun h => ?_, fun frame h => ⟨?_, ?_⟩, fun bytes h => ⟨?_, ?_⟩, fun h => ?_⟩
  · rw [hsync, State.receive, h]
    rfl
  · rw [hsync, State.receive, h]
  · have hend : exec .keyLineReplyEnd s = execKeyLineReplyEnd s := rfl
    rw [hend, execKeyLineReplyEnd, whenRunning_of_running hrun, h]
    rfl
  · rw [hgap, State.discardPartial, h]
    rfl
  · rw [hfault, State.discardPartial, h]
    rfl
  · intro command length payload more high low head reply
    refine ⟨fun hlong => ?_, fun hshort hlength hcrc => ?_, fun hshort hlength hcrc hunknown => ?_,
      fun size hshort hlength hcrc hsize hwrong => ?_⟩
    · rw [hframe, State.receiveAll_of_long h command hlong]
      rfl
    · rw [hframe, State.receiveAll_of_badCrc h command hshort hlength hcrc]
      rfl
    · rw [hframe, State.receiveAll_of_crc h command hshort hlength hcrc, executeFrame, hunknown]
      rfl
    · rw [hframe, State.receiveAll_of_crc h command hshort hlength hcrc, executeFrame, hsize]
      simp only [ne_eq, hwrong, not_false_eq_true, if_true, State.reply_setKeyLine]
      rfl

/-! ### The key loads (R171, R172) -/

theorem loadRole_other {role : Byte} (hnext : role ≠ 1) (hresponse : role ≠ 2) : loadRole role = none := by
  unfold loadRole
  split
  · next h => exact absurd (BitVec.eq_of_toNat_eq h) hnext
  · next h => exact absurd (BitVec.eq_of_toNat_eq h) hresponse
  · rfl

/-- The lowest EMPTY slot is the one that a loaded key enters (R159). -/
theorem loadLowest_eq (w : WrapKey) {slots : Vector (Option WrapKey) 3} {i : Fin 3} (hempty : slots[i] = none)
    (hlowest : ∀ k : Fin 3, k < i → slots[k] ≠ none) : loadLowest w slots = slots.set i (some w) := by
  unfold loadLowest
  have hfull : ∀ k : Fin 3, k < i → slots[k].isNone ≠ true := fun k hk h =>
    hlowest k hk (Option.isNone_iff_eq_none.mp h)
  have hfree : slots[i].isNone = true := Option.isNone_iff_eq_none.mpr hempty
  match i, hfree, hfull with
  | 0, hfree, _ => exact if_pos hfree
  | 1, hfree, hfull =>
    exact (if_neg (hfull 0 (by decide))).trans (if_pos hfree)
  | 2, hfree, hfull =>
    exact (if_neg (hfull 0 (by decide))).trans ((if_neg (hfull 1 (by decide))).trans (if_pos hfree))

/-- A search that a place did not answer and its new content does not either finds what it found before. -/
theorem findSome?_set_none {α β : Type} (f : α → Option β) {x : α} (hx : f x = none) :
    ∀ {l : List α} {i : Nat} (hi : i < l.length), f l[i] = none → (l.set i x).findSome? f = l.findSome? f
  | a :: l, 0, _, ha => by
    rw [List.set_cons_zero, List.findSome?_cons, List.findSome?_cons, hx, show f a = none from ha]
  | a :: l, i + 1, hi, ha => by
    rw [List.set_cons_succ, List.findSome?_cons, List.findSome?_cons,
      findSome?_set_none f hx (Nat.lt_of_succ_lt_succ hi) ha]

/-- A search that found nothing finds what is put into a place. -/
theorem findSome?_set_some {α β : Type} (f : α → Option β) {x : α} {y : β} (hx : f x = some y) :
    ∀ {l : List α} {i : Nat}, i < l.length → l.findSome? f = none → (l.set i x).findSome? f = some y
  | a :: l, 0, _, _ => by rw [List.set_cons_zero, List.findSome?_cons, hx]
  | a :: l, i + 1, hi, hnone => by
    rw [List.findSome?_eq_none_iff] at hnone
    rw [List.set_cons_succ, List.findSome?_cons, hnone a List.mem_cons_self]
    exact findSome?_set_some f hx (Nat.lt_of_succ_lt_succ hi)
      (List.findSome?_eq_none_iff.mpr fun b hb => hnone b (List.mem_cons_of_mem _ hb))

section
variable {k loaded : KeyTable} {w : WrapKey} {i : Fin 3}

/-- A key loaded into an EMPTY slot is found under its role, where that role had no key. -/
theorem KeyTable.find_loaded (hslots : loaded.slots = k.slots.set i (some w)) (hnone : k.find w.role = none) :
    loaded.find w.role = some w := by
  unfold KeyTable.find at hnone ⊢
  rw [hslots, Vector.toList_set]
  exact findSome?_set_some _ (by simp [Option.filter]) (by simp) hnone

/-- The other roles keep their keys. -/
theorem KeyTable.find_loaded_other (hslots : loaded.slots = k.slots.set i (some w)) (hempty : k.slots[i] = none)
    {r : Role} (hr : w.role ≠ r) : loaded.find r = k.find r := by
  unfold KeyTable.find
  rw [hslots, Vector.toList_set]
  refine findSome?_set_none _ (by simp [Option.filter, hr]) (by simp) ?_
  have hslot : k.slots[i.val] = none := hempty
  rw [Vector.getElem_toList, hslot]
  rfl

end

/-- An accepted NEXT key beside a spent ACTIVE one is acted upon as the spending was (R164). -/
theorem loadNext_eq {s : State} {i : Fin 3} (key : Key) (epoch : Nat) (check : CheckValue)
    (hempty : s.keys.slots[i] = none) (hlowest : ∀ k : Fin 3, k < i → s.keys.slots[k] ≠ none) :
    let loaded := { s.keys with
      slots := s.keys.slots.set i (some ⟨.next, key, epoch, 0, check, false⟩), highest := epoch }
    loadNext key epoch check s =
      if s.keys.activeSpent then State.onSpent { s with keys := loaded } else { s with keys := loaded } := by
  intro loaded
  have hspent : loaded.activeSpent = s.keys.activeSpent := by
    unfold KeyTable.activeSpent KeyTable.active
    rw [KeyTable.find_loaded_other (k := s.keys) (loaded := loaded) (r := .active)
      (w := ⟨.next, key, epoch, 0, check, false⟩) rfl hempty nofun]
    rfl
  unfold loadNext
  rw [State.updKeys, loadLowest_eq _ hempty hlowest, ← hspent]

/-- A key spent while a NEXT key waits for the RETIRING one sets the pending-roll flag (R164). -/
theorem State.onSpent_waits {s : State} (hnext : s.keys.find .next ≠ none) (hret : s.keys.find .retiring ≠ none) :
    s.onSpent = { s with keys := { s.keys with pendingRoll := true } } := by
  unfold State.onSpent
  cases hn : s.keys.find .next with
  | none => exact absurd hn hnext
  | some v =>
    cases hr : s.keys.find .retiring with
    | none => exact absurd hr hret
    | some w => rfl

/-- A roll of an ACTIVE key posts RETIRED where no custody entry carries its epoch (R165, R166). -/
theorem State.roll_of_active {s : State} {w : WrapKey} (hret : s.keys.find .retiring = none)
    (hactive : s.keys.active = some w) : s.roll true = { s with
      keys := (s.roll true).keys
      up := if custodyCount w.epoch s.store.directory = 0 then s.up.signalled .retired else s.up } := by
  obtain ⟨-, hroll⟩ := State.roll_rolled hret true
  by_cases hzero : custodyCount w.epoch s.store.directory = 0
  · rw [if_pos ⟨rfl, w, hactive, hzero⟩] at hroll
    rw [if_pos hzero]
    exact hroll
  · rw [if_neg fun ⟨_, v, hv, hcount⟩ => hzero (Option.some.inj (hactive.symm.trans hv) ▸ hcount)] at hroll
    rw [if_neg hzero]
    exact hroll

/-- A spent ACTIVE key is a key. -/
theorem KeyTable.active_of_spent {k : KeyTable} (h : k.activeSpent = true) : ∃ w, k.active = some w := by
  unfold KeyTable.activeSpent at h
  split at h
  · next w hw => exact ⟨w, hw⟩
  · exact absurd h Bool.false_ne_true

/-- The load that a role asks for. -/
def LoadRole.load : LoadRole → Key → Nat → CheckValue → State → State
  | .next => loadNext
  | .response => loadResponse

/-- LOAD_KEY of a key that passes every test is its role's load and the reply OK. -/
theorem loadKey_accepted {s : State} {t : TransportKey} {role : Byte} {r : LoadRole} {epoch : BitVec 16}
    {enciphered : BitVec 128} {check : CheckValue} (htransport : s.keys.transport = some t) (hrole : loadRole role = some r)
    (hfree : r = .next → s.keys.find .next = none)
    (hepoch : 0 < epoch.toNat ∧ (r = .next → s.keys.highest < epoch.toNat))
    (hcheck : checkValueOf (Config.blockCipher.decipher t.key enciphered) = check) :
    loadKey role epoch enciphered check s =
      (r.load (Config.blockCipher.decipher t.key enciphered) epoch.toNat check s).reply loadKeyCode .ok [] := by
  have hidle : ¬ (r = .next ∧ (s.keys.find .next).isSome) := fun h => by
    rw [hfree h.1] at h
    exact Bool.false_ne_true h.2
  have hnew : ¬ (epoch.toNat = 0 ∨ (r = .next ∧ epoch.toNat ≤ s.keys.highest)) := fun h =>
    h.elim (Nat.ne_of_gt hepoch.1) fun h => Nat.not_le.mpr (hepoch.2 h.1) h.2
  unfold loadKey
  rw [htransport, hrole]
  dsimp only
  rw [if_neg hidle, if_neg hnew, if_neg (not_not_intro hcheck)]
  cases r <;> rfl

/-- LOAD_KEY names the first test that fails, after those of transport key and role. -/
theorem loadKey_refused {s : State} {t : TransportKey} {role : Byte} {r : LoadRole} (epoch : BitVec 16)
    (enciphered : BitVec 128) (check : CheckValue) (htransport : s.keys.transport = some t)
    (hrole : loadRole role = some r) :
    (r = .next → s.keys.find .next ≠ none → loadKey role epoch enciphered check s = s.reply loadKeyCode .busy []) ∧
    ((r = .next → s.keys.find .next = none) → epoch.toNat = 0 ∨ (r = .next ∧ epoch.toNat ≤ s.keys.highest) →
      loadKey role epoch enciphered check s = s.reply loadKeyCode .badEpoch []) ∧
    ((r = .next → s.keys.find .next = none) → ¬ (epoch.toNat = 0 ∨ (r = .next ∧ epoch.toNat ≤ s.keys.highest)) →
      checkValueOf (Config.blockCipher.decipher t.key enciphered) ≠ check →
      loadKey role epoch enciphered check s = s.reply loadKeyCode .checkMismatch []) := by
  have hidle (hfree : r = .next → s.keys.find .next = none) : ¬ (r = .next ∧ (s.keys.find .next).isSome) := fun h => by
    rw [hfree h.1] at h
    exact Bool.false_ne_true h.2
  unfold loadKey
  rw [htransport, hrole]
  dsimp only
  refine ⟨fun hnext hbusy => ?_, fun hfree hepoch => ?_, fun hfree hepoch hcheck => ?_⟩
  · exact if_pos ⟨hnext, Option.isSome_iff_ne_none.mpr hbusy⟩
  · rw [if_neg (hidle hfree), if_pos hepoch]
  · rw [if_neg (hidle hfree), if_neg hepoch, if_pos hcheck]

/-- Settles O50. -/
theorem keyLoadsPassTheirTests : Obligations.KeyLoadsPassTheirTests := by
  unfold Obligations.KeyLoadsPassTheirTests
  constructor
  · intro key check s hrun hline reply
    have hexec : exec (.loadTransport key check) s = .next (loadTransport key check (s.setKeyLine .hunt)) :=
      congrArg Host.Outcome.next ((frameArrives_of_receiving hrun hline loadTransportCode
        (by simp [loadTransportPayload, keyBytes, length_beBytes, maxPayload])).trans (executeFrame_loadTransport ..))
    have hfree (h : s.keys.transport = none) : ¬ (s.setKeyLine .hunt).keys.transport.isSome = true := by
      rw [State.setKeyLine_keys, h]
      nofun
    have hfull (h : s.keys.transport ≠ none) : (s.setKeyLine .hunt).keys.transport.isSome = true :=
      Option.isSome_iff_ne_none.mpr h
    rw [hexec, loadTransport]
    refine ⟨fun hloaded => ?_, fun hempty hcheck => ?_, fun hempty hcheck => ?_⟩
    · rw [if_pos (hfull hloaded)]
      rfl
    · rw [if_neg (hfree hempty), if_pos hcheck]
      rfl
    · rw [if_neg (hfree hempty), if_neg (not_not_intro hcheck)]
      rfl
  · intro role epoch enciphered check s hrun hline run reply
    have hexec : run = .next (loadKey role epoch enciphered check (s.setKeyLine .hunt)) :=
      congrArg Host.Outcome.next ((frameArrives_of_receiving hrun hline loadKeyCode
        (by simp [loadKeyPayload, keyBytes, length_beBytes, maxPayload])).trans (executeFrame_loadKey ..))
    rw [hexec]
    refine ⟨fun hempty => ?_, fun t htransport => ?_⟩
    · rw [loadKey, State.setKeyLine_keys, hempty]
      rfl
    · intro key e
      have hrefused (r : LoadRole) (hrole : loadRole role = some r) := loadKey_refused (s := s.setKeyLine .hunt) epoch
        enciphered check htransport hrole
      have haccepted (r : LoadRole) (hrole : loadRole role = some r) := loadKey_accepted (s := s.setKeyLine .hunt)
        (epoch := epoch) (enciphered := enciphered) (check := check) htransport hrole
      have hnext : role = 1 → loadRole role = some .next := fun h => h ▸ rfl
      have hresponse : role = 2 → loadRole role = some .response := fun h => h ▸ rfl
      refine ⟨fun h1 h2 => ?_, fun h1 hbusy => ?_, fun h1 hfree he => ?_, fun h2 he => ?_, fun h1 hfree he hcheck => ?_,
        fun h2 he hcheck => ?_, fun h2 he hcheck => ?_, fun h1 hfree he hcheck hunspent i hempty hlowest => ?_,
        fun h1 hfree he hcheck hspent i hempty hlowest => ?_⟩
      · rw [loadKey, State.setKeyLine_keys, htransport, loadRole_other h1 h2]
        rfl
      · rw [(hrefused .next (hnext h1)).1 rfl hbusy]
        rfl
      · rw [(hrefused .next (hnext h1)).2.1 (fun _ => hfree) (.inr ⟨rfl, he⟩)]
        rfl
      · rw [(hrefused .response (hresponse h2)).2.1 nofun (.inl he)]
        rfl
      · rw [(hrefused .next (hnext h1)).2.2 (fun _ => hfree)
          (fun h => h.elim (Nat.ne_of_gt (Nat.zero_lt_of_lt he)) fun h => Nat.not_le.mpr he h.2) hcheck]
        rfl
      · rw [(hrefused .response (hresponse h2)).2.2 nofun
          (fun h => h.elim (Nat.ne_of_gt he) fun h => absurd h.1 nofun) hcheck]
        rfl
      · rw [haccepted .response (hresponse h2) nofun ⟨he, nofun⟩ hcheck]
        rfl
      · rw [haccepted .next (hnext h1) (fun _ => hfree) ⟨Nat.zero_lt_of_lt he, fun _ => he⟩ hcheck]
        rw [LoadRole.load, loadNext_eq (s := s.setKeyLine .hunt) _ _ _ hempty hlowest, State.setKeyLine_keys, hunspent]
        rfl
      · intro loaded
        have hsome : loaded.find .next = some ⟨.next, key, e, 0, check, false⟩ :=
          KeyTable.find_loaded (k := s.keys) (w := ⟨.next, key, e, 0, check, false⟩) rfl hfree
        have hloaded : loaded.find .next ≠ none := by
          rw [hsome]
          nofun
        have hother {r : Role} (hr : Role.next ≠ r) : loaded.find r = s.keys.find r :=
          KeyTable.find_loaded_other (w := ⟨.next, key, e, 0, check, false⟩) rfl hempty hr
        rw [haccepted .next (hnext h1) (fun _ => hfree) ⟨Nat.zero_lt_of_lt he, fun _ => he⟩ hcheck]
        let u : State := { s.setKeyLine .hunt with keys := loaded }
        have hload : LoadRole.load .next key e check (s.setKeyLine .hunt) = u.onSpent :=
          (loadNext_eq (s := s.setKeyLine .hunt) key e check hempty hlowest).trans (if_pos hspent)
        rw [hload]
        refine ⟨fun hret => ?_, fun hret => ?_⟩
        · have hwaits : loaded.find .retiring ≠ none := (hother (r := .retiring) nofun).symm ▸ hret
          rw [State.onSpent_waits (s := u) hloaded hwaits]
          rfl
        · obtain ⟨w, hactive⟩ := KeyTable.active_of_spent hspent
          have halone : loaded.find .retiring = none := (hother (r := .retiring) nofun).trans hret
          have hwas : loaded.active = some w := (hother (r := .active) nofun).trans hactive
          rw [State.onSpent_rolls (s := u) hloaded halone]
          refine ⟨w, (u.roll true).keys, hactive, (State.roll_rolled (s := u) halone true).1, ?_⟩
          rw [State.roll_of_active (s := u) halone hwas]
          rfl

/-! ### The shop's settings (R173 to R175) -/

/-- Emptying the slots of a role (R166, R173). -/
theorem KeyTable.updRole_none (k : KeyTable) (r : Role) : k.updRole r (fun _ => none) =
    { k with slots := k.slots.map fun o => o.filter fun v => decide (v.role ≠ r) } := by
  unfold KeyTable.updRole KeyTable.mapKeys
  congr 2
  funext o
  cases o with
  | none => rfl
  | some w => by_cases h : w.role = r <;> simp [h, Option.filter]

/-- Without the keys of one role, another role's key is what it was. -/
theorem KeyTable.find_without {k k' : KeyTable} {r r' : Role} (hr : r' ≠ r)
    (hslots : k'.slots = k.slots.map fun o => o.filter fun v => decide (v.role ≠ r)) : k'.find r' = k.find r' := by
  simp only [KeyTable.find, hslots, Vector.toList_map]
  generalize k.slots.toList = l
  induction l with
  | nil => rfl
  | cons o os ih =>
    rw [List.map_cons, List.findSome?_cons, List.findSome?_cons, ih]
    cases o with
    | none => rfl
    | some v =>
      by_cases hv : v.role = r'
      · simp [Option.filter, hv, hr]
      · by_cases hw : v.role = r <;> simp [Option.filter, hv, hw, hr.symm]

/-- DISCARD_NEXT of a NEXT key (R173). -/
theorem dropNext_eq (s : State) :
    let t := { s with keys := { s.keys with
      slots := s.keys.slots.map fun o => o.filter fun w => decide (w.role ≠ .next), pendingRoll := false } }
    dropNext s = if s.keys.activeSpent then
      { t with lp := s.lp.signalled .keySpent, up := s.up.signalled .keySpent } else t := by
  intro t
  have hspent : t.keys.activeSpent = s.keys.activeSpent := by
    unfold KeyTable.activeSpent KeyTable.active
    rw [KeyTable.find_without (k := s.keys) (k' := t.keys) (r := .next) (r' := .active) nofun rfl]
    rfl
  unfold dropNext
  rw [State.updKeys, KeyTable.updRole_none, ← hspent]
  rfl

theorem query_other {selector : Byte} (index : Byte) (s : State) (h : selector = 0 ∨ 3 < selector.toNat) :
    query selector index s = s.reply queryCode .badSelector [] := by
  rcases h with rfl | hlarge
  · rfl
  · unfold query
    split
    · omega
    · omega
    · omega
    · rfl

/-- Settles O51. -/
theorem shopSettingsAndDiscard : Obligations.ShopSettingsAndDiscard := by
  unfold Obligations.ShopSettingsAndDiscard
  intro s hrun hline reply
  have hdiscard : exec .discardNext s = .next (discardNext (s.setKeyLine .hunt)) :=
    congrArg Host.Outcome.next (frameArrives_of_receiving hrun hline discardNextCode (payload := []) (by decide))
  have hpolicy (entries : Vector Byte 15) : exec (.setPolicy entries) s =
      .next (Machine.setPolicy entries (s.setKeyLine .hunt)) :=
    congrArg Host.Outcome.next ((frameArrives_of_receiving hrun hline setPolicyCode
      (by simp [maxPayload])).trans (executeFrame_setPolicy ..))
  have hshop (identity : BitVec 32) : exec (.setShop identity) s =
      .next (setShop identity (s.setKeyLine .hunt)) :=
    congrArg Host.Outcome.next ((frameArrives_of_receiving hrun hline setShopCode
      (by simp [setShopPayload, length_beBytes, maxPayload])).trans (executeFrame_setShop ..))
  have hquery (selector index : Byte) : exec (.query selector index) s =
      .next (query selector index (s.setKeyLine .hunt)) :=
    congrArg Host.Outcome.next (frameArrives_of_receiving hrun hline queryCode (payload := [selector, index])
      (by simp [maxPayload]))
  refine ⟨fun hempty => ?_, fun hsome => ?_, fun entries policy h => ?_, fun identity => ⟨fun hzero => ?_, fun hset => ?_⟩,
    fun index => ⟨?_, ?_, ?_, fun selector hother => ?_⟩⟩
  · rw [hdiscard, discardNext, State.setKeyLine_keys, hempty]
    rfl
  · intro t
    rw [hdiscard, discardNext, if_neg (by rw [State.setKeyLine_keys, Option.isNone_iff_eq_none]; exact hsome), dropNext_eq]
    cases hspent : s.keys.activeSpent <;> simp only [State.setKeyLine_keys, hspent] <;> rfl
  · have hentries : entries.map policyEntry = policy := by
      ext i hi
      obtain ⟨hrequired, hclass⟩ := h ⟨i, hi⟩
      rw [Vector.getElem_map]
      exact (congr (congrArg PolicyEntry.mk hclass) hrequired).symm
    rw [hpolicy, Machine.setPolicy, hentries]
    rfl
  · rw [hshop, setShop, if_pos (show (s.setKeyLine .hunt).keys.identity = 0 from hzero)]
    rfl
  · rw [hshop, setShop, if_neg (show ¬ (s.setKeyLine .hunt).keys.identity = 0 from hset)]
    rfl
  · rw [hquery]
    rfl
  · rw [hquery]
    rfl
  · rw [hquery]
    rfl
  · rw [hquery, query_other index _ hother]
    rfl

end Sys2Proof.Machine
end

section
/-! PROOFS. RESET, power and tamper: the job in service abandoned, the transactions ended, and what a start keeps. -/

namespace Sys2Proof.Machine

/-! ### The end of the transactions (R188) -/

/-- The transactions of both ports end, each after a number of words of its own choice. -/
theorem State.endTransactions_eq (s : State) : s.endTransactions = { s with
    lp := s.lp.endTransactions (Config.wordsSent s.choices)
    up := s.up.endTransactions (Config.wordsSent (s.choices + 1))
    choices := s.choices + 2 } := rfl

/-- A port that answers as at the end of its transactions has ended them. -/
theorem State.answerEnded_of_endTransactions {s t : State} {p : PortId} {sent : Nat}
    (hsending : (t.port p).sending = false)
    (hanswer : (t.port p).answer = ((s.port p).endTransactions sent).answer) : s.AnswerEnded t p := by
  refine ⟨hsending, fun r limit b hheld => ?_, fun hheld => ⟨fun hidle => ?_, fun a hsends ha => ⟨sent, ?_⟩⟩⟩
  · rw [hanswer, Port.endTransactions, hheld]
  · rw [hanswer, Port.endTransactions, hheld, hidle]
    rfl
  · rw [hanswer, Port.endTransactions, hheld, hsends, ha]
    rfl

/-! ### What an abandoned job gives back (R79, R85, R162, R166) -/

/-- The use of a key set back touches the key table alone. -/
theorem State.setBackUse_useSetBack (s : State) (epoch : Nat) :
    ∃ k, s.setBackUse epoch = { s with keys := k } ∧ s.keys.UseSetBack k epoch := by
  let slots := s.keys.slots.map fun o => o.map fun w =>
    if w.epoch = epoch then { w with uses := w.uses - 1 } else w
  let k : KeyTable := { s.keys with slots := slots }
  have hmap : (s.keys.mapKeys fun w => some (if w.epoch = epoch then { w with uses := w.uses - 1 } else w)) = k := by
    unfold KeyTable.mapKeys
    congr 2
    funext o
    cases o <;> rfl
  by_cases hends : s.keys.activeSpent = true ∧ k.activeSpent = false
  · refine ⟨{ k with pendingRoll := false }, ?_, rfl, (if_pos hends).symm⟩
    unfold State.setBackUse State.updKeys
    dsimp only
    rw [hmap, if_pos (by rw [hends.1, hends.2]; rfl)]
  · refine ⟨k, ?_, rfl, (if_neg hends).symm⟩
    unfold State.setBackUse State.updKeys
    dsimp only
    rw [hmap, if_neg (by simpa using hends)]

/-- The setback keeps roles and epochs. -/
theorem KeyTable.UseSetBack.lookedOver {k k' : KeyTable} {epoch : Nat} (h : k.UseSetBack k' epoch) (d : List Entry) :
    k'.lookedOver d = k.lookedOver d := by
  obtain ⟨hframe, -⟩ := h
  have hfind := KeyTable.find_map (k := k) (k' := k') (f := fun w =>
    if w.epoch = epoch then { w with uses := w.uses - 1 } else w) (by rw [hframe]) (fun v => by split <;> rfl) .retiring
  have hcampaign : k'.campaign = k.campaign := by rw [hframe]
  unfold KeyTable.lookedOver
  rw [hcampaign, hfind]
  cases k.campaign with
  | some n => rfl
  | none =>
    cases k.find .retiring with
    | none => rfl
    | some w =>
      dsimp only [Option.map_some]
      split <;> rfl

/-- A claimed tail entry goes, with its charge (R85). -/
theorem State.removeClaim_of_claimed {s : State} {older : List Entry} {e : Entry} {n : Nat}
    (hdirectory : s.store.directory = older ++ [e]) (hnumber : e.number = n) (hwriting : e.state = .writing) :
    ∃ st, s.removeClaim n = { s with store := st, meter := s.meter - e.charge } ∧ s.store.Unclaimed st older e s.cfg := by
  have hclaimed : claimedEntry n s.store.directory = some e := by
    rw [claimedEntry, hdirectory, List.getLast?_concat]
    exact if_pos (decide_eq_true ⟨hnumber, hwriting⟩)
  have hremoved : s.store.removeTail e = { s.store with
      directory := older
      headSlot := if older = [] then e.firstSlot else s.store.headSlot
      tailSlot := e.firstSlot
      counter := e.number } := by
    simp only [Store.removeTail, hdirectory, List.dropLast_concat, List.isEmpty_iff]
  refine ⟨_, ?_, rfl⟩
  rw [State.removeClaim, hclaimed]
  dsimp only
  rw [State.evalLow_eq, State.updStore, hremoved]
  rfl

/-- Whatever it finds, the removal touches store and meter alone. -/
theorem State.removeClaim_eq (s : State) (n : Nat) :
    ∃ st m, s.removeClaim n = { s with store := st, meter := m } := by
  unfold State.removeClaim
  cases claimedEntry n s.store.directory with
  | none => exact ⟨s.store, s.meter, rfl⟩
  | some e => exact ⟨_, _, State.evalLow_eq _⟩

/-- Settled without an announcement, the retiring count touches the key table alone. -/
theorem State.settleRetiring_quiet (s : State) :
    s.settleRetiring false = { s with keys := (s.settleRetiring false).keys } := by
  obtain ⟨-, hretires, hkept⟩ := s.settleRetiring_resettled false
  by_cases h : s.keys.Retires s.store.directory
  · exact hretires h
  · exact hkept h

/-- The restoration of a job that claimed the tail entry. -/
theorem State.undoClaim_of_claimed {s : State} {older : List Entry} {e : Entry} {n : Nat} (epoch : Nat)
    (hdirectory : s.store.directory = older ++ [e]) (hnumber : e.number = n) (hwriting : e.state = .writing) :
    ∃ st keys, s.undoClaim n epoch = { s with store := st, meter := s.meter - e.charge, keys := keys } ∧
      s.store.Unclaimed st older e s.cfg ∧ ∃ k, s.keys.UseSetBack k epoch ∧ k.Resettled keys older := by
  obtain ⟨k, hback, hsetBack⟩ := s.setBackUse_useSetBack epoch
  obtain ⟨st, hremoved, hunclaimed⟩ := State.removeClaim_of_claimed (s := { s with keys := k }) hdirectory hnumber hwriting
  let t : State := { s with keys := k, store := st, meter := s.meter - e.charge }
  have hundo : s.undoClaim n epoch = t.settleRetiring false := by
    rw [State.undoClaim, hback, hremoved]
  have holder : t.store.directory = older := congrArg Store.directory hunclaimed
  refine ⟨st, (t.settleRetiring false).keys, ?_, hunclaimed, k, hsetBack, ?_⟩
  · rw [hundo]
    exact State.settleRetiring_quiet t
  · exact holder ▸ (t.settleRetiring_resettled false).1

/-- A RESET asserted while the part runs (R104). -/
theorem exec_resetAssertion {s : State} (hrun : s.run = .running) : exec .resetAssertion s =
    .next (((s.abandonJob.endTransactions.setKeyLine .hunt).setRun .inReset).setResetInput true) := by
  have hexec : exec .resetAssertion s = execResetAssertion s := rfl
  rw [hexec, execResetAssertion, whenRunning_of_running hrun, State.halt]

/-- What the assertion of RESET makes of a state whose job is abandoned. -/
theorem State.stopped_eq (a : State) :
    ((a.endTransactions.setKeyLine .hunt).setRun .inReset).setResetInput true = { a with
      run := .inReset
      resetInput := true
      keyLine := .hunt
      lp := a.lp.endTransactions (Config.wordsSent a.choices)
      up := a.up.endTransactions (Config.wordsSent (a.choices + 1))
      choices := a.choices + 2 } := by
  rw [State.endTransactions_eq]
  rfl

/-- The lane job in service is abandoned with its lane's sequence set back (R14, R79). -/
theorem State.abandonJob_of_lane {s : State} {lane : Fin 16} {number epoch : Nat}
    (hjob : (∃ j : WrapJob, s.engine.job = some (.wrap j) ∧ j.lane = lane ∧ j.number = number ∧ j.epoch = epoch) ∨
      ∃ j : AdviseJob, s.engine.job = some (.advise j) ∧ j.lane = lane ∧ j.number = number ∧ j.epoch = epoch) :
    s.abandonJob = (s.undoLaneClaim lane number epoch).updEngine fun e => { e with job := none } := by
  unfold State.abandonJob
  rcases hjob with ⟨j, hjob, rfl, rfl, rfl⟩ | ⟨j, hjob, rfl, rfl, rfl⟩ <;> rw [hjob] <;> rfl

/-- Settles O52. -/
theorem resetAbandonsTheJobInService : Obligations.ResetAbandonsTheJobInService := by
  unfold Obligations.ResetAbandonsTheJobInService
  intro s hrun stopped claims restored
  rw [exec_resetAssertion hrun]
  refine ⟨fun lane number epoch older e hjob ⟨hdirectory, hnumber, hwriting⟩ => ?_,
    fun j older e hjob ⟨hdirectory, hnumber, hwriting⟩ => ?_, fun j hjob => ?_, fun j hjob => ?_⟩
  · obtain ⟨st, keys, hundo, hunclaimed, hkeys⟩ := State.undoClaim_of_claimed epoch hdirectory hnumber hwriting
    have habandon : s.abandonJob = { s with
        engine := { s.engine with job := none }
        store := st
        meter := s.meter - e.charge
        keys := keys
        lanes := s.lanes.set lane { s.lanes[lane] with seq := predSeq s.lanes[lane].seq } } := by
      rw [State.abandonJob_of_lane hjob, State.undoLaneClaim, hundo]
      rfl
    rw [habandon, State.stopped_eq]
    exact ⟨_, rfl, ⟨hunclaimed, rfl, hkeys⟩, rfl⟩
  · obtain ⟨st, keys, hundo, hunclaimed, hkeys⟩ := State.undoClaim_of_claimed j.epoch hdirectory hnumber hwriting
    have habandon : s.abandonJob = { s with
        engine := { s.engine with job := none }
        store := st
        meter := s.meter - e.charge
        keys := keys
        batch := s.batch.loseSummary j.number } := by
      rw [State.abandonJob, hjob]
      dsimp only [State.undoJob]
      rw [hundo]
      rfl
    rw [habandon, State.stopped_eq]
    exact ⟨_, rfl, ⟨hunclaimed, rfl, hkeys⟩, rfl⟩
  · let u := s.updStore fun st => st.updEntry j.target Entry.unrewrapped
    obtain ⟨k, hback, hsetBack⟩ := u.setBackUse_useSetBack j.epoch
    have habandon : s.abandonJob = { s with
        engine := { s.engine with job := none }
        store := { s.store with directory := unrewrapped j.target s.store.directory }
        keys := { k with campaign := k.lookedOver (unrewrapped j.target s.store.directory) } } := by
      rw [State.abandonJob, hjob]
      dsimp only [State.undoJob]
      rw [hback, State.campaignLook_lookedOver]
      rfl
    rw [habandon, State.stopped_eq]
    refine ⟨_, k, rfl, hsetBack, rfl, hsetBack.lookedOver _⟩
  · rw [State.stopped_eq, State.abandonJob, hjob]
    rfl

/-! ### The rest of a warm start (R106, R167, R188) -/

/-- With its request cleared, the campaign looks at the directory of the start (R167). -/
theorem State.campaignAnew_eq (s : State) : s.campaignAnew = { s with keys := { s.keys with
    campaign := (s.keys.find .retiring).bind fun w => campaignTarget w.epoch s.store.directory } } := by
  have hlooked : ({ s.keys with campaign := none } : KeyTable).lookedOver s.store.directory =
      (s.keys.find .retiring).bind fun w => campaignTarget w.epoch s.store.directory := by
    have hfind : ({ s.keys with campaign := none } : KeyTable).find .retiring = s.keys.find .retiring := rfl
    unfold KeyTable.lookedOver
    rw [hfind]
    cases s.keys.find .retiring <;> rfl
  rw [← hlooked, State.campaignAnew, State.campaignLook_lookedOver]
  rfl

theorem State.restart_eq (s : State) : s.restart = { s with
    run := .running
    lanes := s.lanes.map Lane.restarted
    engine := s.engine.restarted
    intake := s.intake.restarted
    batch := { s.batch with closePending := false }
    store := s.store.restarted s.cfg
    spill := { s.spill with reservation := none }
    link := ⟨.doubt, 0, 0⟩
    keys := { s.keys with
      campaign := (s.keys.find .retiring).bind fun w =>
        campaignTarget w.epoch (s.store.directory.map Entry.restarted) }
    lp := s.lp.restarted
    up := s.up.restarted } := by
  let before : State := { s with
    lanes := s.lanes.map Lane.restarted
    engine := s.engine.restarted
    intake := s.intake.restarted
    batch := { s.batch with closePending := false }
    store := s.store.restarted s.cfg
    spill := { s.spill with reservation := none }
    link := ⟨.doubt, 0, 0⟩ }
  have hbefore : s.restart =
      ((before.campaignAnew.updPort .lp Port.restarted).updPort .up Port.restarted).setRun .running := rfl
  rw [hbefore, State.campaignAnew_eq]
  rfl

/-- The states of its entries do not count for a store's use. -/
theorem bothLow_restarted (st : Store) (cfg : Settings) : bothLow (st.mapEntries Entry.restarted) cfg =
    (decide (st.slotsUsed < cfg.lowSlot) && decide (st.entriesUsed < cfg.lowEntry)) := by
  have hslots : Entry.slots ∘ Entry.restarted = Entry.slots := rfl
  rw [bothLow, Store.slotsUsed, Store.entriesUsed, Store.mapEntries, List.map_map, hslots, List.length_map]
  rfl

/-- A release of RESET on a part held in it (R104). -/
theorem exec_resetRelease {s : State} (hrun : s.run = .inReset) :
    exec .resetRelease s = .next (s.setResetInput false).restart := by
  have hexec : exec .resetRelease s = execResetRelease s := rfl
  have hheld : (s.setResetInput false).run = .inReset := hrun
  rw [hexec, execResetRelease, State.leaveReset, hheld]

/-- Settles O53. -/
theorem warmResetKeepsRetainedState : Obligations.WarmResetKeepsRetainedState := by
  unfold Obligations.WarmResetKeepsRetainedState
  intro s hrun hidle
  have habandon : s.abandonJob = s := by rw [State.abandonJob, hidle]
  have hassert := exec_resetAssertion hrun
  rw [habandon, State.stopped_eq] at hassert
  have hengine : s.engine.restarted = ⟨none, 0, 0, 0⟩ := by rw [Engine.restarted, hidle]
  refine ⟨_, _, hassert, exec_resetRelease rfl, ?_⟩
  rw [State.restart_eq]
  refine ⟨?_, fun l => Vector.getElem_map .., List.map_congr_left fun e _ => ?_, ?_, rfl, fun p => ?_⟩
  · rw [State.mk.injEq]
    exact ⟨rfl, hrun.symm, rfl, rfl, rfl, rfl, hengine, rfl, rfl, rfl, rfl, rfl, rfl, rfl, rfl, rfl, rfl, rfl, rfl⟩
  · rw [Entry.restarted]
    cases e.state <;> rfl
  · exact bothLow_restarted s.store s.cfg
  · cases p
    · exact ⟨rfl, rfl, rfl, rfl, rfl, rfl, rfl, State.answerEnded_of_endTransactions rfl rfl⟩
    · exact ⟨rfl, rfl, rfl, rfl, rfl, rfl, rfl, State.answerEnded_of_endTransactions rfl rfl⟩

/-! ### Abandonment and what surrounds it: a loss of power abandons its job only when power returns (R104) -/

/-- The state `s` with the waiting commands, run state, RESET input, marker, key line, ports and counter of `o`: the
parts that an abandoned job does not touch. -/
def State.around (s o : State) : State :=
  { s with
    pending := o.pending, run := o.run, resetInput := o.resetInput, marker := o.marker, keyLine := o.keyLine
    lp := o.lp, up := o.up, choices := o.choices }

section
variable (s o : State)

@[simp] theorem State.around_pending : (s.around o).pending = o.pending := rfl
@[simp] theorem State.around_run : (s.around o).run = o.run := rfl
@[simp] theorem State.around_resetInput : (s.around o).resetInput = o.resetInput := rfl
@[simp] theorem State.around_marker : (s.around o).marker = o.marker := rfl
@[simp] theorem State.around_keyLine : (s.around o).keyLine = o.keyLine := rfl
@[simp] theorem State.around_engine : (s.around o).engine = s.engine := rfl

theorem State.setBackUse_around (epoch : Nat) :
    (s.around o).setBackUse epoch = (s.setBackUse epoch).around o := by
  unfold State.setBackUse
  dsimp only
  refine Eq.trans ?_ (apply_ite (State.around · o) ..).symm
  rfl

theorem State.removeClaim_around (n : Nat) : (s.around o).removeClaim n = (s.removeClaim n).around o := by
  have hclaimed : claimedEntry n (s.around o).store.directory = claimedEntry n s.store.directory := rfl
  unfold State.removeClaim
  rw [hclaimed]
  cases claimedEntry n s.store.directory with
  | none => rfl
  | some e =>
    dsimp only
    rw [State.evalLow_eq, State.evalLow_eq]
    rfl

theorem State.campaignLook_around : (s.around o).campaignLook = s.campaignLook.around o := by
  rw [State.campaignLook_lookedOver, State.campaignLook_lookedOver]
  rfl

theorem State.roll_around : (s.around o).roll false = (s.roll false).around o := by
  have hactive : (s.around o).keys.active = s.keys.active := rfl
  unfold State.roll
  rw [hactive]
  cases s.keys.active with
  | none => rfl
  | some w =>
    let turned := s.updKeys fun k => { k.rollRoles with retiring := custodyCount w.epoch s.store.directory }
    refine Eq.trans ?_ (apply_ite (State.around · o) ..).symm
    exact ite_congr rfl (fun _ => rfl) fun _ => State.campaignLook_around turned o

theorem State.settleRetiring_around : (s.around o).settleRetiring false = (s.settleRetiring false).around o := by
  have hret : (s.around o).keys.find .retiring = s.keys.find .retiring := rfl
  unfold State.settleRetiring
  rw [hret]
  cases s.keys.find .retiring with
  | none => rfl
  | some w =>
    let erased := (s.updKeys fun k => { k with
      retiring := custodyCount w.epoch s.store.directory }).eraseRetiring false
    refine Eq.trans ?_ (apply_ite (State.around · o) ..).symm
    refine ite_congr rfl (fun _ => ?_) fun _ => rfl
    refine Eq.trans ?_ (apply_ite (State.around · o) ..).symm
    exact ite_congr rfl (fun _ => State.roll_around erased o) fun _ => rfl

theorem State.undoClaim_around (n epoch : Nat) : (s.around o).undoClaim n epoch = (s.undoClaim n epoch).around o := by
  rw [State.undoClaim, State.setBackUse_around, State.removeClaim_around, State.settleRetiring_around, State.undoClaim]

theorem State.undoJob_around (j : Job) : (s.around o).undoJob j = (s.undoJob j).around o := by
  cases j with
  | wrap j =>
    simp only [State.undoJob, State.undoLaneClaim, State.undoClaim_around]
    rfl
  | advise j =>
    simp only [State.undoJob, State.undoLaneClaim, State.undoClaim_around]
    rfl
  | close j =>
    simp only [State.undoJob, State.undoClaim_around]
    rfl
  | rewrap j =>
    let u := s.updStore fun st => st.updEntry j.target Entry.unrewrapped
    have hu : (s.around o).undoJob (.rewrap j) = ((u.around o).setBackUse j.epoch).campaignLook := rfl
    rw [hu, State.setBackUse_around, State.campaignLook_around]
    rfl
  | opening j => rfl

/-- The abandonment of the job neither reads nor writes what surrounds it. -/
theorem State.abandonJob_around : (s.around o).abandonJob = s.abandonJob.around o := by
  have hjob : (s.around o).engine.job = s.engine.job := rfl
  unfold State.abandonJob
  rw [hjob]
  cases s.engine.job with
  | none => rfl
  | some j =>
    dsimp only
    rw [State.undoJob_around]
    rfl

theorem State.abandonJob_surroundings : s.abandonJob = s.abandonJob.around s :=
  State.abandonJob_around s s

theorem State.abandonJob_idle : s.abandonJob.engine.job = none := by
  cases hjob : s.engine.job with
  | none =>
    rw [State.abandonJob, hjob]
    exact hjob
  | some j =>
    rw [State.abandonJob, hjob]
    rfl

end

/-- A warm start does not read the run state that it ends. -/
theorem State.restart_setRun (s : State) (r : RunState) : (s.setRun r).restart = s.restart := by
  rw [State.restart_eq, State.restart_eq]
  rfl

/-- Power lost (R104, R188). -/
theorem exec_powerLoss (backupHeld : Bool) (s : State) : exec (.powerLoss backupHeld) s =
    .next (((whenRunning s State.endTransactions).setRun .unpowered).setMarker (s.marker && backupHeld)) := rfl

theorem exec_powerUp_warm {s : State} (hrun : s.run = .unpowered) (hmarker : s.marker = true) :
    exec .powerUp s = .next s.warmPowerUp := by
  have hexec : exec .powerUp s = execPowerUp s := rfl
  rw [hexec, execPowerUp, if_pos hrun, if_pos hmarker]

theorem exec_powerUp_cold {s : State} (hrun : s.run = .unpowered) (hmarker : s.marker = false) :
    exec .powerUp s = .next s.coldStart := by
  have hexec : exec .powerUp s = execPowerUp s := rfl
  rw [hexec, execPowerUp, if_pos hrun, if_neg (Bool.eq_false_iff.mp hmarker)]

/-- A part held in reset that loses power and gets it back is held in reset as before. -/
theorem State.warmPowerUp_of_held {s : State} (hrun : s.run = .inReset) (hreset : s.resetInput = true)
    (hidle : s.engine.job = none) (hhunt : s.keyLine = .hunt) : (s.setRun .unpowered).warmPowerUp = s := by
  have hjob : (s.setRun .unpowered).engine.job = none := hidle
  have hinput : ((s.setRun .unpowered).setKeyLine .hunt).resetInput = true := hreset
  rw [State.warmPowerUp, State.abandonJob, hjob]
  dsimp only
  rw [if_pos hinput, ← hhunt, ← hrun]
  rfl

/-- A running part whose power is lost. -/
def State.withoutPower (s : State) (backupHeld : Bool) : State :=
  { s with
    run := .unpowered
    marker := s.marker && backupHeld
    lp := s.lp.endTransactions (Config.wordsSent s.choices)
    up := s.up.endTransactions (Config.wordsSent (s.choices + 1))
    choices := s.choices + 2 }

/-- A running part whose RESET input is asserted. -/
def State.heldInReset (s : State) : State :=
  s.abandonJob.around { s with
    run := .inReset
    resetInput := true
    keyLine := .hunt
    lp := s.lp.endTransactions (Config.wordsSent s.choices)
    up := s.up.endTransactions (Config.wordsSent (s.choices + 1))
    choices := s.choices + 2 }

@[simp] theorem State.withoutPower_resetInput (s : State) (backupHeld : Bool) :
    (s.withoutPower backupHeld).resetInput = s.resetInput := rfl

@[simp] theorem State.heldInReset_run (s : State) : s.heldInReset.run = .inReset := rfl
@[simp] theorem State.heldInReset_resetInput (s : State) : s.heldInReset.resetInput = true := rfl
@[simp] theorem State.heldInReset_pending (s : State) : s.heldInReset.pending = s.pending := rfl
@[simp] theorem State.heldInReset_marker (s : State) : s.heldInReset.marker = s.marker := rfl
@[simp] theorem State.heldInReset_keyLine (s : State) : s.heldInReset.keyLine = .hunt := rfl

theorem State.heldInReset_idle (s : State) : s.heldInReset.engine.job = none := by
  rw [State.heldInReset, State.around_engine]
  exact s.abandonJob_idle

theorem exec_powerLoss_running {s : State} (hrun : s.run = .running) (backupHeld : Bool) :
    exec (.powerLoss backupHeld) s = .next (s.withoutPower backupHeld) := by
  rw [exec_powerLoss, whenRunning_of_running hrun, State.endTransactions_eq]
  rfl

theorem exec_resetAssertion_held {s : State} (hrun : s.run = .running) :
    exec .resetAssertion s = .next s.heldInReset := by
  rw [exec_resetAssertion hrun, State.abandonJob_surroundings, State.stopped_eq]
  rfl

/-- When power returns the job is abandoned, as if power had not been lost. -/
theorem State.abandonJob_withoutPower (s : State) (backupHeld : Bool) :
    (s.withoutPower backupHeld).abandonJob = s.abandonJob.around (s.withoutPower backupHeld) := by
  have haround : s.withoutPower backupHeld = s.around (s.withoutPower backupHeld) := rfl
  exact (congrArg State.abandonJob haround).trans (State.abandonJob_around ..)

/-- The start after a loss of power under the backup supply is that of a RESET asserted and released. -/
theorem State.warmPowerUp_withoutPower {s : State} (hreset : s.resetInput = false) :
    (s.withoutPower true).warmPowerUp = (s.heldInReset.setResetInput false).restart := by
  have hheld : s.heldInReset.setResetInput false =
      ((s.abandonJob.around (s.withoutPower true)).setKeyLine .hunt).setRun .inReset := by
    rw [State.withoutPower, Bool.and_true, ← hreset]
    rfl
  have hinput : ((s.abandonJob.around (s.withoutPower true)).setKeyLine .hunt).resetInput = false := by
    rw [State.setKeyLine_resetInput, State.around_resetInput, State.withoutPower_resetInput, hreset]
  rw [hheld, State.restart_setRun, State.warmPowerUp, State.abandonJob_withoutPower]
  exact if_neg (Bool.eq_false_iff.mp hinput)

/-- Without its backup supply it makes a cold start, and RESET holds it still. -/
theorem State.coldStart_of_held {s : State} (hreset : s.resetInput = true) :
    ((s.setRun .unpowered).setMarker false).coldStart = { State.reset with
      pending := s.pending, choices := s.choices, resetInput := true, run := .inColdReset } := by
  rw [State.coldStart, State.setMarker_resetInput, State.setRun_resetInput, hreset]
  rfl

/-- Settles O54. The job is abandoned before the transactions end where RESET is asserted, and after it where power
returns; `State.abandonJob_around` says that this order leaves no trace. -/
theorem powerUpReadsTheRetentionMarker : Obligations.PowerUpReadsTheRetentionMarker := by
  unfold Obligations.PowerUpReadsTheRetentionMarker
  intro s hrun hreset
  have hlose := exec_powerLoss_running hrun
  have hassert := exec_resetAssertion_held hrun
  have hheld (backupHeld : Bool) : exec (.powerLoss backupHeld) s.heldInReset =
      .next ((s.heldInReset.setRun .unpowered).setMarker (s.marker && backupHeld)) := by
    rw [exec_powerLoss, whenRunning_of_not_running (by rw [State.heldInReset_run]; nofun), State.heldInReset_marker]
  refine ⟨⟨s.withoutPower false, hlose false, rfl, Bool.and_false _, ?_⟩, fun hmarker => ?_, ?_⟩
  · have hinput : (s.withoutPower false).resetInput = false := hreset
    rw [exec_powerUp_cold rfl (Bool.and_false _), State.coldStart, hinput]
    rfl
  · have hvalid : (s.withoutPower true).marker = true := (Bool.and_true _).trans hmarker
    refine ⟨s.withoutPower true, s.heldInReset, (s.heldInReset.setResetInput false).restart, hlose true, rfl, hvalid,
      hassert, s.heldInReset_run, exec_resetRelease s.heldInReset_run, ?_, ?_, s.heldInReset.setRun .unpowered, ?_, rfl, ?_⟩
    · rw [State.restart_eq]
    · rw [exec_powerUp_warm rfl hvalid, State.warmPowerUp_withoutPower hreset]
    · rw [hheld, Bool.and_true, ← State.heldInReset_marker]
      rfl
    · rw [exec_powerUp_warm (s := s.heldInReset.setRun .unpowered) rfl hmarker,
        State.warmPowerUp_of_held s.heldInReset_run s.heldInReset_resetInput s.heldInReset_idle s.heldInReset_keyLine]
  · have hcold := State.coldStart_of_held s.heldInReset_resetInput
    rw [s.heldInReset_pending] at hcold
    refine ⟨s.heldInReset, (s.heldInReset.setRun .unpowered).setMarker false, _, hassert, ?_,
      (exec_powerUp_cold rfl rfl).trans (congrArg _ hcold), rfl, rfl⟩
    rw [hheld, Bool.and_false]

/-! ### Tamper (R176) -/

/-- A key table without keys finds none. -/
theorem KeyTable.find_of_empty {k : KeyTable} (h : k.slots = Vector.replicate 3 none) (r : Role) : k.find r = none := by
  rw [KeyTable.find, h]
  rfl

section
variable {s : State} (h : s.keys.slots = Vector.replicate 3 none)
include h

/-- Without keys, the campaign has nothing to look for. -/
theorem State.campaignLook_of_empty : s.campaignLook = s := by
  rw [State.campaignLook, KeyTable.find_of_empty h]

/-- Without keys, no use is set back. -/
theorem State.setBackUse_of_empty (epoch : Nat) : s.setBackUse epoch = s := by
  have hspent : s.keys.activeSpent = false := by
    rw [KeyTable.activeSpent, KeyTable.active, KeyTable.find_of_empty h]
  have hkeys (f : WrapKey → Option WrapKey) : s.keys.mapKeys f = s.keys := by
    rw [KeyTable.mapKeys, h, Vector.map_replicate, Option.bind_none, ← h]
  rw [State.setBackUse, hspent, Bool.false_and, if_neg Bool.false_ne_true, State.updKeys, hkeys]

/-- Without keys, a claim is undone by its removal alone. -/
theorem State.undoClaim_of_empty (n epoch : Nat) : s.undoClaim n epoch = s.removeClaim n := by
  have hret : (s.removeClaim n).keys.find .retiring = none := by
    obtain ⟨st, m, hremoved⟩ := s.removeClaim_eq n
    rw [hremoved]
    exact KeyTable.find_of_empty h _
  rw [State.undoClaim, State.setBackUse_of_empty h, State.settleRetiring, hret]

end

/-- Store `st` and meter `m` are those of `s` without the tail entry that a job claimed under the number `n`, if it
did. -/
def State.ClaimUndone (s : State) (st : Store) (m n : Nat) : Prop :=
  ∀ (older : List Entry) (e : Entry), s.store.directory = older ++ [e] → e.number = n → e.state = .writing →
    m = s.meter - e.charge ∧ s.store.Unclaimed st older e s.cfg

theorem State.removeClaim_claimUndone (s : State) (n : Nat) : ∃ st m, s.removeClaim n = { s with store := st, meter := m } ∧
    s.ClaimUndone st m n := by
  obtain ⟨st, m, hremoved⟩ := s.removeClaim_eq n
  refine ⟨st, m, hremoved, fun older e hdirectory hnumber hwriting => ?_⟩
  obtain ⟨st', hremoved', hunclaimed⟩ := State.removeClaim_of_claimed hdirectory hnumber hwriting
  have hsame := hremoved.symm.trans hremoved'
  have hstore : st = st' := congrArg State.store hsame
  have hmeter : m = s.meter - e.charge := congrArg State.meter hsame
  exact ⟨hmeter, hstore ▸ hunclaimed⟩

theorem State.undoLaneClaim_of_empty {s : State} (h : s.keys.slots = Vector.replicate 3 none) (lane : Fin 16)
    (n epoch : Nat) : ∃ st m lanes, s.undoLaneClaim lane n epoch = { s with store := st, meter := m, lanes := lanes } ∧
      s.ClaimUndone st m n := by
  obtain ⟨st, m, hremoved, hundone⟩ := s.removeClaim_claimUndone n
  refine ⟨st, m, s.lanes.set lane { s.lanes[lane] with seq := predSeq s.lanes[lane].seq }, ?_, hundone⟩
  rw [State.undoLaneClaim, State.undoClaim_of_empty h, hremoved]
  rfl

/-- Store `st`, meter `m` and batch `b` are those of `s` with the given job in service abandoned (R79, R156). -/
def State.JobUndone (s : State) (st : Store) (m : Nat) (b : Batch) : Option Job → Prop
  | none => st = s.store ∧ m = s.meter ∧ b = s.batch
  | some (.opening _) => st = s.store ∧ m = s.meter ∧ b = s.batch
  | some (.wrap j) => s.ClaimUndone st m j.number ∧ b = s.batch
  | some (.advise j) => s.ClaimUndone st m j.number ∧ b = s.batch
  | some (.close j) => s.ClaimUndone st m j.number ∧ b = s.batch.summaryGone j.number
  | some (.rewrap j) =>
    st = { s.store with directory := unrewrapped j.target s.store.directory } ∧ m = s.meter ∧ b = s.batch

/-- Without keys, abandoning the job touches engine, store, meter, batch and lanes. -/
theorem State.abandonJob_of_empty {s : State} (h : s.keys.slots = Vector.replicate 3 none) : ∃ st m b lanes,
    s.abandonJob = { s with
      engine := { s.engine with job := none }, store := st, meter := m, batch := b, lanes := lanes } ∧
      s.JobUndone st m b s.engine.job := by
  cases hjob : s.engine.job with
  | none =>
    have hengine : { s.engine with job := none } = s.engine := by rw [← hjob]
    refine ⟨s.store, s.meter, s.batch, s.lanes, ?_, rfl, rfl, rfl⟩
    rw [hengine, State.abandonJob, hjob]
  | some j =>
    rw [State.abandonJob, hjob]
    cases j with
    | wrap j =>
      obtain ⟨st, m, lanes, hundo, hundone⟩ := State.undoLaneClaim_of_empty h j.lane j.number j.epoch
      refine ⟨st, m, s.batch, lanes, ?_, hundone, rfl⟩
      dsimp only [State.undoJob]
      rw [hundo]
      rfl
    | advise j =>
      obtain ⟨st, m, lanes, hundo, hundone⟩ := State.undoLaneClaim_of_empty h j.lane j.number j.epoch
      refine ⟨st, m, s.batch, lanes, ?_, hundone, rfl⟩
      dsimp only [State.undoJob]
      rw [hundo]
      rfl
    | close j =>
      obtain ⟨st, m, hremoved, hundone⟩ := s.removeClaim_claimUndone j.number
      refine ⟨st, m, s.batch.summaryGone j.number, s.lanes, ?_, hundone, rfl⟩
      dsimp only [State.undoJob]
      rw [State.undoClaim_of_empty h, hremoved]
      rfl
    | rewrap j =>
      let u := s.updStore fun st => st.updEntry j.target Entry.unrewrapped
      have hu : u.keys.slots = Vector.replicate 3 none := h
      refine ⟨u.store, s.meter, s.batch, s.lanes, ?_, rfl, rfl, rfl⟩
      dsimp only [State.undoJob]
      rw [State.setBackUse_of_empty hu, State.campaignLook_of_empty hu]
      rfl
    | opening j => exact ⟨s.store, s.meter, s.batch, s.lanes, rfl, rfl, rfl, rfl⟩

/-- What a tamper makes of a state whose keys are gone and whose job is abandoned. -/
theorem State.tampered_eq (a : State) : (a.endTransactions.clearAtTamper.setKeyLine .hunt).postBoth .tamper = { a with
    lanes := Vector.replicate 16 Lane.tampered
    engine := a.engine.restarted
    store := a.store.mapEntries Entry.unawaited
    intake := Intake.tampered
    keyLine := .hunt
    lp := (a.lp.endTransactions (Config.wordsSent a.choices)).signalled .tamper
    up := (a.up.endTransactions (Config.wordsSent (a.choices + 1))).signalled .tamper
    choices := a.choices + 2 } := by
  rw [State.endTransactions_eq]
  rfl

/-- Settles O55. The keys go first, so that the abandoned job gives no use back and nothing is settled. -/
theorem tamperZeroisesTheKeys : Obligations.TamperZeroisesTheKeys := by
  unfold Obligations.TamperZeroisesTheKeys
  intro s
  obtain ⟨st, m, b, lanes, habandon, hundone⟩ := State.abandonJob_of_empty (s := s.updKeys KeyTable.zeroised) rfl
  have hclaim (n : Nat) (hclaimed : s.ClaimUndone st m n) (older : List Entry) (e : Entry)
      (hdirectory : s.store.directory = older ++ [e]) (hnumber : e.number = n) (hwriting : e.state = .writing) :
      m = s.meter - e.charge ∧ ∃ u, s.store.Unclaimed u older e s.cfg ∧
        st.mapEntries Entry.unawaited = u.mapEntries Entry.unawaited := by
    obtain ⟨hmeter, hunclaimed⟩ := hclaimed older e hdirectory hnumber hwriting
    exact ⟨hmeter, st, hunclaimed, rfl⟩
  have hjob (job : Option Job) (h : s.engine.job = job) : s.JobUndone st m b job := h ▸ hundone
  have hexec : exec .tamper s = .next { s with
      lanes := Vector.replicate 16 Lane.tampered
      engine := ⟨none, 0, 0, 0⟩
      store := st.mapEntries Entry.unawaited
      meter := m
      batch := b
      intake := Intake.tampered
      keys := s.keys.zeroised
      keyLine := .hunt
      lp := (s.lp.endTransactions (Config.wordsSent s.choices)).signalled .tamper
      up := (s.up.endTransactions (Config.wordsSent (s.choices + 1))).signalled .tamper
      choices := s.choices + 2 } := by
    have htamper : exec .tamper s = execTamper s := rfl
    rw [htamper, execTamper, habandon, State.tampered_eq]
    rfl
  refine ⟨_, hexec, rfl, ⟨fun hnone => ?_, fun j hj => ?_, fun j hj => ?_, fun j hj => ?_, fun j hj => ?_⟩, fun p => ?_⟩
  · rcases hnone with hnone | ⟨j, hj⟩
    · obtain ⟨hstore, hmeter, hbatch⟩ := hjob none hnone
      exact ⟨congrArg (Store.mapEntries · Entry.unawaited) hstore, hmeter, hbatch⟩
    · obtain ⟨hstore, hmeter, hbatch⟩ := hjob _ hj
      exact ⟨congrArg (Store.mapEntries · Entry.unawaited) hstore, hmeter, hbatch⟩
  · obtain ⟨hclaimed, hbatch⟩ := hjob _ hj
    exact ⟨hclaim _ hclaimed, hbatch⟩
  · obtain ⟨hclaimed, hbatch⟩ := hjob _ hj
    exact ⟨hclaim _ hclaimed, hbatch⟩
  · obtain ⟨hclaimed, hbatch⟩ := hjob _ hj
    exact ⟨hclaim _ hclaimed, hbatch⟩
  · obtain ⟨hstore, hmeter, hbatch⟩ := hjob _ hj
    exact ⟨congrArg (Store.mapEntries · Entry.unawaited) hstore, hmeter, hbatch⟩
  · cases p
    · exact ⟨rfl, rfl, rfl, rfl, rfl, rfl, rfl, State.answerEnded_of_endTransactions rfl rfl⟩
    · exact ⟨rfl, rfl, rfl, rfl, rfl, rfl, rfl, State.answerEnded_of_endTransactions rfl rfl⟩

end Sys2Proof.Machine
end

section
/-! PROOFS. The window decoder and the contents of the control items (11.2, 11.5, 12.4). -/

namespace Sys2Proof.Machine

/-! ### The tables of the decoder (R179, R180) -/

/-- Table 11-2 and Table 11-3: an access of this direction that the port has. -/
def TablesAllow (p : PortId) (dir : Direction) (control : Bool) (c : Nat) (index : Word) : Prop :=
  match control, dir, p with
  | false, .read, .lp => c = 2 ∨ c = 3 ∨ c = 4 ∨ c = 5
  | false, .read, .up => c = 5 ∨ c = 6
  | false, .write, .lp => c = 1 ∨ c = 2 ∨ c = 4
  | false, .write, .up => c = 7 ∨ c = 8 ∨ c = 9
  | true, .read, _ => True
  | true, .write, .lp => 23 ≤ c ∧ c ≤ 25 ∧ index = 0
  | true, .write, .up => (11 ≤ c ∧ c ≤ 22) ∨ (23 ≤ c ∧ c ≤ 25 ∧ index = 1)

/-- The range of the index of a window or control item. -/
def IndexInRange (control : Bool) (c : Nat) (index : Word) : Prop :=
  if control then (c = 3 → index.toNat ≤ 15) ∧ (c = 16 → index.toNat ≤ 7) ∧ (23 ≤ c → index.toNat ≤ 1)
  else c ≤ 3 → index.toNat ≤ 15

/-- The codes that name a window or a control item. -/
def CodeKnown (control : Bool) (c : Nat) : Prop := if control then 1 ≤ c ∧ c ≤ 25 else 1 ≤ c ∧ c ≤ 9

theorem codeKnown_iff (control : Bool) (code : BitVec 5) :
    (if control then knownItem code else knownWindow code) = true ↔ CodeKnown control code.toNat := by
  cases control
  · exact decide_eq_true_iff
  · exact decide_eq_true_iff

theorem indexOut_iff {control : Bool} {code : BitVec 5} (index : Word) (h : CodeKnown control code.toNat) :
    indexOut control code index = true ↔ ¬ IndexInRange control code.toNat index := by
  cases control
  · obtain ⟨hlow, -⟩ : 1 ≤ code.toNat ∧ code.toNat ≤ 9 := h
    simp only [indexOut, IndexInRange, Bool.false_eq_true, if_false, Bool.and_eq_true, decide_eq_true_eq]
    omega
  · obtain ⟨-, hhigh⟩ : 1 ≤ code.toNat ∧ code.toNat ≤ 25 := h
    simp only [indexOut, IndexInRange, if_true]
    split
    case h_6 hlane hrisk hstatus hmask hwrite =>
      have hother : ¬ 23 ≤ code.toNat := fun h => by
        have hmask' : code.toNat ≠ 24 := hmask
        have hwrite' : code.toNat ≠ 25 := hwrite
        exact hstatus (by omega)
      exact iff_of_false Bool.false_ne_true
        (not_not_intro ⟨fun h => absurd h hlane, fun h => absurd h hrisk, fun h => absurd h hother⟩)
    all_goals
      simp only [decide_eq_true_eq]
      omega

theorem windowAccess_iff (p : PortId) (dir : Direction) (code : BitVec 5) (index : Word) :
    windowAccess p dir code = true ↔ TablesAllow p dir false code.toNat index := by
  unfold windowAccess TablesAllow
  cases p <;> cases dir <;> grind

theorem itemWrite_iff (p : PortId) (code : BitVec 5) (index : Word) :
    itemWrite p code index = true ↔ TablesAllow p .write true code.toNat index := by
  unfold itemWrite TablesAllow portIndex
  cases p <;> grind

theorem accessDenied_window (p : PortId) (dir : Direction) (code : BitVec 5) (index : Word) :
    accessDenied p dir false code index = !windowAccess p dir code := rfl

theorem accessDenied_itemWrite (p : PortId) (code : BitVec 5) (index : Word) : accessDenied p .write true code index =
    (!itemWrite p code index && !(decide (0x17 ≤ code.toNat) && indexOut true code index)) := rfl

/-- What the tables give is not denied, whatever the index. -/
theorem accessDenied_of_allowed {p : PortId} {dir : Direction} {control : Bool} {code : BitVec 5} {index : Word}
    (h : TablesAllow p dir control code.toNat index) : accessDenied p dir control code index = false := by
  cases control
  · rw [accessDenied_window, (windowAccess_iff ..).mpr h]
    rfl
  · cases dir
    · rfl
    · rw [accessDenied_itemWrite, (itemWrite_iff ..).mpr h]
      rfl

/-- What the tables do not give is denied, with an index in range. -/
theorem accessDenied_of_not_allowed {p : PortId} {dir : Direction} {control : Bool} {code : BitVec 5} {index : Word}
    (h : ¬ TablesAllow p dir control code.toNat index) (hrange : indexOut control code index = false) :
    accessDenied p dir control code index = true := by
  cases control
  · rw [accessDenied_window, Bool.eq_false_iff.mpr (mt (windowAccess_iff ..).mp h)]
    rfl
  · cases dir
    · exact absurd trivial h
    · rw [accessDenied_itemWrite, Bool.eq_false_iff.mpr (mt (itemWrite_iff ..).mp h), hrange, Bool.and_false]
      rfl

section
variable {p : PortId} {dir : Direction} {control : Bool} {code : BitVec 5} {index : Word}

theorem decoderRefusal_of_unknown (h : ¬ CodeKnown control code.toNat) :
    decoderRefusal p dir control code index = some .badWindow := by
  rw [decoderRefusal, Bool.eq_false_iff.mpr (mt (codeKnown_iff ..).mp h)]
  rfl

theorem decoderRefusal_of_known (h : CodeKnown control code.toNat) : decoderRefusal p dir control code index =
    match accessDenied p dir control code index, indexOut control code index with
    | false, false => none
    | true, false => some .denied
    | false, true => some .badWindow
    | true, true => some (if Config.deniedFirst then .denied else .badWindow) := by
  rw [decoderRefusal, (codeKnown_iff ..).mpr h]
  rfl

theorem indexOut_of_inRange (hknown : CodeKnown control code.toNat) (hrange : IndexInRange control code.toNat index) :
    indexOut control code index = false :=
  Bool.eq_false_iff.mpr fun h => (indexOut_iff index hknown).mp h hrange

theorem decoderRefusal_of_outOfRange (hknown : CodeKnown control code.toNat)
    (hallowed : TablesAllow p dir control code.toNat index) (hrange : ¬ IndexInRange control code.toNat index) :
    decoderRefusal p dir control code index = some .badWindow := by
  rw [decoderRefusal_of_known hknown, accessDenied_of_allowed hallowed, (indexOut_iff index hknown).mpr hrange]

theorem decoderRefusal_of_denied (hknown : CodeKnown control code.toNat)
    (hdenied : ¬ TablesAllow p dir control code.toNat index) (hrange : IndexInRange control code.toNat index) :
    decoderRefusal p dir control code index = some .denied := by
  have hin := indexOut_of_inRange hknown hrange
  rw [decoderRefusal_of_known hknown, accessDenied_of_not_allowed hdenied hin, hin]

theorem decoderRefusal_of_admitted (hknown : CodeKnown control code.toNat)
    (hallowed : TablesAllow p dir control code.toNat index) (hrange : IndexInRange control code.toNat index) :
    decoderRefusal p dir control code index = none := by
  rw [decoderRefusal_of_known hknown, accessDenied_of_allowed hallowed, indexOut_of_inRange hknown hrange]

end

/-! ### A refused header, and the read of a control item -/

/-- The status with which a read is answered whose header is refused (R179, R180). -/
def headerStatus (reason : Reason) : ReadStatus := if reason = .denied then .denied else .badWindow

/-- A port at which a transaction is refused at its header: a read is answered, and a write ends the answer of an earlier
read. -/
def Port.headerRefused (q : Port) (dir : Direction) (target : Target) (index : Word) (hdr : Header) (reason : Reason) :
    Port :=
  let q' := q.refused (refusal target index hdr reason)
  match dir with
  | .read => q'.answered (headerStatus reason) hdr []
  | .write => { q' with sending := false }

/-- A header refused for a reason changes its port alone, within the burst limit (R179, R180, R184). -/
theorem exec_of_decoderRefusal {p : PortId} {dir : Direction} {control : Bool} {code : BitVec 5} {index : Word}
    {reason : Reason} {count : Nat} {s : State} (hdr : Header) (hrun : s.run = .running)
    (hfree : (s.port p).held = none) (hcount : count ≤ 64)
    (h : decoderRefusal p dir control code index = some reason) :
    exec (.headerRefusal p dir control code index hdr count) s =
      .next (s.updPort p fun q => q.headerRefused dir ⟨control, code⟩ index hdr reason) := by
  have hexec : exec (.headerRefusal p dir control code index hdr count) s =
      execHeaderRefusal p dir control code index hdr count s := rfl
  rw [hexec, execHeaderRefusal, h]
  dsimp only
  rw [whenRunning_of_running hrun, hfree]
  cases dir
  · refine (congrArg Host.Outcome.next (State.noteBurst_of_le _ p hcount)).trans ?_
    rw [State.recordRefusal_eq]
    cases p <;> rfl
  · refine (congrArg Host.Outcome.next (State.noteBurst_of_le _ p hcount)).trans ?_
    rw [State.recordRefusal_eq]
    cases p <;> rfl

/-- An admitted read of a control item at an open port is answered with the item (R180, R191). -/
theorem exec_of_controlRead {p : PortId} {code : BitVec 5} {index : Word} {count : Nat} {s : State} (hdr : Header)
    (hopen : s.Open p) (hcount : count ≤ 64) (h : decoderRefusal p .read true code index = none) :
    exec (.headerRefusal p .read true code index hdr count) s =
      .next (s.updPort p fun q => q.answered .ok hdr (wordsOf (s.itemBytes code.toNat index.toNat))) := by
  have hanswer : s.answerRead p ⟨.control code count, index, hdr⟩ s.cfg.holdLimit =
      s.readControl p code index hdr count := rfl
  have hread : readOf (.headerRefusal p .read true code index hdr count) =
      some (p, ⟨.control code count, index, hdr⟩) := if_pos ⟨rfl, rfl, h⟩
  rw [exec_of_readOf hread, State.portRead_of_open hopen, hanswer, State.readControl, State.noteBurst_of_le _ _ hcount, State.answerWith_eq]

/-! ### Items in words (12.1, R191) -/

theorem wordsOf_two (n : Nat) (rest : List Byte) : wordsOf (beBytes 2 n ++ rest) = BitVec.ofNat 16 n :: wordsOf rest := by
  simp only [beBytes, List.nil_append, List.cons_append, wordsOf, wordOf_ofNat]

theorem wordsOf_four (n : Nat) (rest : List Byte) :
    wordsOf (beBytes 4 n ++ rest) = BitVec.ofNat 16 (n / 65536) :: BitVec.ofNat 16 n :: wordsOf rest := by
  have hhigh : n / 256 / 256 = n / 65536 := Nat.div_div_eq_div_mul ..
  simp only [beBytes, List.nil_append, List.cons_append, wordsOf, wordOf_ofNat, hhigh]

theorem wordsOf_three (n : Nat) (b : Byte) (rest : List Byte) : wordsOf (beBytes 3 n ++ b :: rest) =
    BitVec.ofNat 16 (n / 256) :: (BitVec.ofNat 8 n ++ b) :: wordsOf rest := by
  simp only [beBytes, List.nil_append, List.cons_append, wordsOf, wordOf_ofNat]
  rfl

/-- A quantity of three bytes ends in a word that a zero byte completes. -/
theorem wordsOf_three_last (n : Nat) : wordsOf (beBytes 3 n) = [BitVec.ofNat 16 (n / 256), BitVec.ofNat 8 n ++ 0#8] := by
  simp only [beBytes, List.nil_append, List.cons_append, wordsOf, wordOf_ofNat]
  rfl

/-- A byte before a quantity of four shifts it against the words. -/
theorem wordsOf_byte_four (b : Byte) (n : Nat) : wordsOf (b :: beBytes 4 n) =
    [b ++ BitVec.ofNat 8 (n / 16777216), BitVec.ofNat 16 (n / 256), BitVec.ofNat 8 n ++ 0#8] := by
  have hhigh : n / 256 / 256 / 256 = n / 16777216 := by omega
  simp only [beBytes, List.nil_append, List.cons_append, wordsOf, wordOf_ofNat, hhigh]
  rfl

theorem beBytes_one (n : Nat) : beBytes 1 n = [BitVec.ofNat 8 n] := rfl

section
variable (s : State)

theorem wordsOf_identityBytes : wordsOf s.identityBytes = [0x0410, BitVec.ofNat 16 (s.keys.identity / 65536),
    BitVec.ofNat 16 s.keys.identity, 0x1010, 0x0002, 0x0001, 0x0008] := by
  simp only [State.identityBytes, List.append_assoc, wordsOf_two, wordsOf_four]
  rfl

theorem wordsOf_spillStatusBytes :
    let n := (s.spill.reservation.map Reservation.number).getD 0
    wordsOf s.spillStatusBytes = [BitVec.ofNat 16 s.spill.list.length,
      (match s.spill.reservation with | none => 0#8 | some r => if r.live then 1#8 else 2#8) ++
        BitVec.ofNat 8 (n / 16777216),
      BitVec.ofNat 16 (n / 256), BitVec.ofNat 8 n ++ 0#8] := by
  intro n
  have hcode : BitVec.ofNat 8 (reservationCode s.spill.reservation) =
      (match s.spill.reservation with | none => 0#8 | some r => if r.live then 1#8 else 2#8) := by
    cases s.spill.reservation with
    | none => rfl
    | some r => cases hlive : r.live <;> simp [reservationCode, hlive]
  rw [State.spillStatusBytes, List.append_assoc, wordsOf_two, beBytes_one, List.singleton_append, wordsOf_byte_four, hcode]

theorem wordsOf_exposureStatusBytes : wordsOf s.exposureStatusBytes = [BitVec.ofNat 16 (s.meter / 65536),
    BitVec.ofNat 16 s.meter, BitVec.ofNat 16 (s.cfg.ceiling / 65536), BitVec.ofNat 16 s.cfg.ceiling,
    (match s.link.state with | .contact => 0#8 | .doubt => 1#8 | .outage => 2#8) ++ BitVec.ofNat 8 s.link.misses,
    BitVec.ofNat 8 s.link.signs ++ 0#8] := by
  have hcode : BitVec.ofNat 8 s.link.state.code =
      (match s.link.state with | .contact => 0#8 | .doubt => 1#8 | .outage => 2#8) := by
    cases s.link.state <;> rfl
  simp only [State.exposureStatusBytes, List.append_assoc, wordsOf_four, beBytes_one, List.singleton_append, hcode]
  rfl

theorem wordsOf_intakeStatusBytes :
    let n := (s.intake.last.map Prod.snd).getD 0
    wordsOf s.intakeStatusBytes = [BitVec.ofNat 8 s.intake.queue.length ++ BitVec.ofNat 8 s.intake.claimed,
      BitVec.ofNat 8 s.intake.suspended.toNat ++ BitVec.ofNat 8 s.intake.forged,
      BitVec.ofNat 8 s.intake.late ++ BitVec.ofNat 8 s.cfg.forgedLimit,
      (match s.intake.last.map Prod.fst with
        | none => 0#8
        | some .noKey => 1#8
        | some .staleKey => 2#8
        | some .forged => 3#8
        | some .valid => 4#8
        | some .late => 5#8) ++ BitVec.ofNat 8 (n / 16777216),
      BitVec.ofNat 16 (n / 256), BitVec.ofNat 8 n ++ 0#8] := by
  intro n
  have hcode : BitVec.ofNat 8 ((s.intake.last.map fun o => o.1.code).getD 0) =
      (match s.intake.last.map Prod.fst with
        | none => 0#8
        | some .noKey => 1#8
        | some .staleKey => 2#8
        | some .forged => 3#8
        | some .valid => 4#8
        | some .late => 5#8) := by
    rcases s.intake.last with _ | ⟨outcome, _⟩
    · rfl
    · cases outcome <;> rfl
  simp only [State.intakeStatusBytes, beBytes_one, List.cons_append, List.nil_append, hcode, wordsOf,
    wordsOf_byte_four]
  rfl

theorem wordsOf_batchStatusBytes : wordsOf s.batchStatusBytes = [BitVec.ofNat 16 s.batch.number,
    BitVec.ofNat 16 (s.batch.first / 65536), BitVec.ofNat 16 s.batch.first,
    BitVec.ofNat 16 (s.batch.recordCount / 256),
    BitVec.ofNat 8 s.batch.recordCount ++ saturationByte s.batch.classes,
    BitVec.ofNat 8 s.batch.summaryLost.toNat ++ BitVec.ofNat 8 s.batch.closePending.toNat,
    BitVec.ofNat 16 (s.batch.shopSeq / 256), BitVec.ofNat 8 s.batch.shopSeq ++ 0#8] := by
  simp only [State.batchStatusBytes, List.append_assoc, wordsOf_two, wordsOf_four, beBytes_one, List.cons_append,
    List.nil_append, wordsOf_three, wordsOf, wordsOf_three_last]
  rfl

end

/-- Settles O47. -/
theorem headersAreRefusedByTheTables : Obligations.HeadersAreRefusedByTheTables := by
  unfold Obligations.HeadersAreRefusedByTheTables
  intro p dir control code index hdr count s hrun hfree hcount c known allowed inRange outcome command
  have hknown : known = CodeKnown control c := rfl
  have hallowed : allowed = TablesAllow p dir control c index := by
    cases control <;> cases dir <;> cases p <;> rfl
  have hinRange : inRange = IndexInRange control c index := rfl
  rw [hknown, hallowed, hinRange]
  refine ⟨fun hk => ?_, fun hk ha hr => ?_, fun hk ha hr => ?_, fun hk ha hr hother => ?_,
    fun hk hr hdir hcontrol hempty => ?_⟩
  · exact exec_of_decoderRefusal hdr hrun hfree hcount (decoderRefusal_of_unknown hk)
  · exact exec_of_decoderRefusal hdr hrun hfree hcount (decoderRefusal_of_outOfRange hk ha hr)
  · exact exec_of_decoderRefusal hdr hrun hfree hcount (decoderRefusal_of_denied hk ha hr)
  · have hexec : exec command s = execHeaderRefusal p dir control code index hdr count s := rfl
    rw [hexec, execHeaderRefusal, decoderRefusal_of_admitted hk ha hr]
    exact congrArg Host.Outcome.next (if_neg hother)
  · subst hdir hcontrol
    refine ⟨_, exec_of_controlRead hdr ⟨hrun, hfree, hempty⟩ hcount (decoderRefusal_of_admitted hk trivial hr), rfl,
      fun hc => ?_, fun hc => ?_, fun hc => ?_, fun hc => ?_, fun hc => ?_⟩
    · rw [show code.toNat = 1 from hc]
      exact wordsOf_identityBytes s
    · rw [show code.toNat = 5 from hc]
      exact wordsOf_spillStatusBytes s
    · rw [show code.toNat = 6 from hc]
      exact wordsOf_exposureStatusBytes s
    · rw [show code.toNat = 7 from hc]
      exact wordsOf_intakeStatusBytes s
    · rw [show code.toNat = 8 from hc]
      exact wordsOf_batchStatusBytes s

end Sys2Proof.Machine
end
